-- ==== Sys2Proof/Word.lean ====
section
/-! DEFINITION. The byte of the line, the numbered tables of the part's records (48 channels, 6 stations, ...) and
the saturating count. -/

namespace Sys2Proof

/-- A byte as it stands on the line. -/
abbrev Byte := BitVec 8

/-- A channel number, 0..47; channel n governs gate n (00, Numbering). -/
abbrev Gate := Fin 48
/-- A station number, 0..5, upstream to downstream. -/
abbrev StationId := Fin 6
/-- A reach number, 0..4; reach k runs from station k to station k+1. -/
abbrev ReachId := Fin 5
/-- A gang number, 0..7. -/
abbrev GangId := Fin 8
/-- A rating surface number, 0..11. -/
abbrev SurfaceId := Fin 12

/-- A table of exactly `n` records, held as plain data. -/
structure Tab (n : Nat) (α : Type) where
  list : List α
  len : list.length = n
  deriving DecidableEq, Repr

/-- The record numbered `i`. -/
def Tab.get {n : Nat} {α : Type} (t : Tab n α) (i : Fin n) : α :=
  t.list[i.1]'(t.len.symm ▸ i.2)

/-- The table with record `i` replaced. -/
def Tab.set {n : Nat} {α : Type} (t : Tab n α) (i : Fin n) (v : α) : Tab n α :=
  ⟨t.list.set i.1 v, (List.length_set ..).trans t.len⟩

/-- The table whose record `i` is `f i`. -/
def Tab.gen {n : Nat} {α : Type} (f : Fin n → α) : Tab n α :=
  ⟨List.ofFn f, List.length_ofFn⟩

/-- Every number 0..n-1 in ascending order. -/
def allFin (n : Nat) : List (Fin n) := List.ofFn id

/-- The number `k` as one of 0..n-1, when it lies there. -/
def toFin? (n k : Nat) : Option (Fin n) := if h : k < n then some ⟨k, h⟩ else none

@[simp] theorem Tab.get_gen {n : Nat} {α : Type} (f : Fin n → α) (i : Fin n) : (Tab.gen f).get i = f i := by
  simp [Tab.get, Tab.gen]

@[simp] theorem Tab.get_set_self {n : Nat} {α : Type} (t : Tab n α) (i : Fin n) (v : α) : (t.set i v).get i = v := by
  simp [Tab.get, Tab.set]

@[simp] theorem Tab.get_set_ne {n : Nat} {α : Type} (t : Tab n α) {i j : Fin n} (v : α) (h : j ≠ i) :
    (t.set i v).get j = t.get j := by
  have : i.1 ≠ j.1 := fun e => h (Fin.ext e.symm)
  simp [Tab.get, Tab.set, this]

theorem Tab.get_set {n : Nat} {α : Type} (t : Tab n α) (i j : Fin n) (v : α) :
    (t.set i v).get j = if j = i then v else t.get j := by
  by_cases h : j = i
  · subst h; simp
  · simp [h]

theorem Tab.ext_get {n : Nat} {α : Type} {t u : Tab n α} (h : ∀ i, t.get i = u.get i) : t = u := by
  obtain ⟨l, hl⟩ := t
  obtain ⟨m, hm⟩ := u
  have : l = m := by
    apply List.ext_getElem (hl.trans hm.symm)
    intro k hk _
    exact h ⟨k, hl ▸ hk⟩
  subst this
  rfl

@[simp] theorem Tab.set_get_self {n : Nat} {α : Type} (t : Tab n α) (i : Fin n) : t.set i (t.get i) = t := by
  apply Tab.ext_get
  intro j
  rw [Tab.get_set]
  split
  · next h => rw [h]
  · rfl

@[simp] theorem mem_allFin {n : Nat} (i : Fin n) : i ∈ allFin n := by
  simp [allFin, List.mem_ofFn]

theorem toFin?_eq_some {n k : Nat} {i : Fin n} : toFin? n k = some i ↔ k = i.1 := by
  unfold toFin?
  by_cases h : k < n
  · simp [h, Fin.ext_iff]
  · simp only [h, dite_false, reduceCtorEq, false_iff]
    intro e
    exact h (e ▸ i.2)

@[simp] theorem toFin?_val {n : Nat} (i : Fin n) : toFin? n i.1 = some i := toFin?_eq_some.2 rfl

end Sys2Proof
end

