-- ==== Sys2Proof/Config.lean ====
section
/-! DEFINITION. What is fixed for the part (capacities, ranges) and the values the manual leaves open. -/

namespace Sys2Proof.Config

/-- Greatest value of every count of the part (R98, R143, R67). -/
def countMax : Nat := 4294967295
/-- Greatest storage in cubic metres (00, Units and ranges). -/
def storageMax : Nat := 4294967295
/-- Where ages stop (R9, R45). -/
def ageMax : Nat := 65535
/-- Full stroke in stroke units (00, Units and ranges). -/
def fullOpening : Nat := 1000
/-- Places of URGENT (R144). -/
def urgentCap : Nat := 16
/-- Places of ROUTINE (R144). -/
def routineCap : Nat := 64
/-- Greatest urgent streak (R146). -/
def streakMax : Nat := 8
/-- Places of UP_FWD (R147). -/
def fwdCap : Nat := 64
/-- Places of UP_OWN (R147). -/
def ownCap : Nat := 32
/-- Requests the inbox holds (R149). -/
def inboxCap : Nat := 4
/-- Parcels a reach line holds (R64). -/
def parcelCap : Nat := 96
/-- Longest parcel in model minutes (R64). -/
def parcelMinutes : Nat := 1440
/-- Longest payload of a line frame (section 9.1). -/
def payloadMax : Nat := 56
/-- Seconds of the prescaler's cycle, less one (R128). -/
def prescalerMax : Nat := 19999999

/-- Whether a plan entry whose present byte holds a value other than 0 and 1 counts as present. Section 12.4 gives
the byte as "1 present, 0 absent" and is silent on the other values. A free value (DESIGN CHOICE, log 13). -/
opaque presentOther : Nat → Bool

/-- The bytes a report or a notice frame holds where the manual gives none (an absent level, a missing capture, the
subject number of a notice without subject): argument 1 is the model's counter, argument 2 the place. A free value
(DESIGN CHOICE, log 14). -/
opaque freeByte : Nat → Nat → Byte

end Sys2Proof.Config
end

