-- ==== Sys2Proof/Syntax.lean ====
section
/-! DEFINITION. The commands of the block: one constructor per row of spec/opcode_table.json, with its operands. -/

namespace Sys2Proof

/-- A line frame without its check value, which its other bytes fix (section 9.1). -/
structure LineFrame where
  dest : Byte
  typ : Byte
  payload : List Byte
  deriving DecidableEq, Repr

/-- The two line ports: D faces dispatch, F faces the field. -/
inductive Port where
  | d | f
  deriving DecidableEq, Repr

/-- The two gauge roles of a station (R40). -/
inductive GaugeRole where
  | headwater | tailwater
  deriving DecidableEq, Repr

/-- Who takes first the place that a frame leaves in ROUTINE (R144, log 6). -/
inductive Claim where
  /-- The waiting channels. -/
  | channels
  /-- This frame from dispatch, received as the place becomes free; the waiting channels judge after it. -/
  | frame (f : LineFrame)
  deriving DecidableEq, Repr

/-- Who takes first the place of UP_OWN that an own frame leaves (R147, R149, log 6). -/
inductive FirstTaker where
  /-- The Management Responder. -/
  | responder
  /-- The event of the next command, whose notice may take the place; the Responder takes what it can after it. -/
  | nextEvent
  deriving DecidableEq, Repr

/-- Which part of a model minute's work the command takes (R47, R131; log 4). -/
inductive MinutePart where
  /-- All that is still owed: outflow, then balance, then schedule. -/
  | whole
  /-- The outflow events of the stations (R46). -/
  | outflow
  /-- The reaches and the balance events (R65, R49). -/
  | balance
  /-- The schedule (R136). -/
  | schedule
  deriving DecidableEq, Repr

/-- The commands. A frame command carries the frame's destination and payload bytes; its type is the row's. -/
inductive Instr where
  /-- POWER_ON_RESET with the levels of the node straps. -/
  | powerOnReset (straps : Byte)
  /-- EXTERNAL_RESET with the levels of the node straps. -/
  | externalReset (straps : Byte)
  | fieldReadyAsserted
  | fieldReadyDeasserted
  | secondTick
  | modelMinute (part : MinutePart)
  | positionStale (gate : Gate)
  | stepTimeout (gate : Gate)
  | dwellExpiry (gate : Gate)
  | gangDwellExpiry (gang : GangId)
  | gaugeStale (station : StationId) (role : GaugeRole)
  | firstSilenceExpiry (station : StationId)
  | secondSilenceExpiry (station : StationId)
  | retainedWriteComplete
  /-- DAMAGED_FRAME: the bytes received between the marks, and whether the line marked the end (R139). -/
  | damagedFrame (port : Port) (bytes : List Byte) (endMarked : Bool)
  | setpoint (dest : Byte) (payload : List Byte)
  | keepalive (dest : Byte) (payload : List Byte)
  | inflow (dest : Byte) (payload : List Byte)
  | mgmtReq (dest : Byte) (payload : List Byte)
  | dispatchFramePass (frame : LineFrame)
  | position (dest : Byte) (payload : List Byte)
  | gauge (dest : Byte) (payload : List Byte)
  | fieldFrameForward (frame : LineFrame)
  | incrementStart (gate : Gate)
  | portFTxBegin (claim : Claim)
  | portFTxEnd
  | portDTxBegin (first : FirstTaker)
  | portDTxEnd
  | mgmtBadKind
  | readEntry
  | openLoad
  | writeEntry
  | abandon
  | copy
  | check
  | commit
  | setClock
  | resumeStation
  | resumeGate
  | forceGate
  | setMemberOut
  | reseedReach
  | readMarks
  | snapshot
  | readSnapshot
  | setSampler
  | readTrace
  | readCounts
  | restart
  deriving DecidableEq, Repr

end Sys2Proof
end

