-- ==== Sys2Proof/Machine/Frames.lean ====
section
/-! DEFINITION. Bytes of the line: byte order, the CRC of R139, the frame as it stands on the line, the frame type codes
and the damage test of the receive framer. -/

namespace Sys2Proof

/-- Type of a SETPOINT frame (section 12.1). -/
def typSetpoint : Byte := 0x10#8
/-- Type of a POSITION frame (section 12.1). -/
def typPosition : Byte := 0x11#8
/-- Type of a GAUGE frame (section 12.1). -/
def typGauge : Byte := 0x12#8
/-- Type of a KEEPALIVE frame (section 12.1). -/
def typKeepalive : Byte := 0x13#8
/-- Type of a INFLOW frame (section 12.1). -/
def typInflow : Byte := 0x14#8
/-- Type of a MGMT_REQ frame (section 12.1). -/
def typMgmtReq : Byte := 0x20#8
/-- Type of a MGMT_REPLY frame (section 12.1). -/
def typMgmtReply : Byte := 0x21#8
/-- Type of a NOTICE frame (section 12.1). -/
def typNotice : Byte := 0x22#8

/-- A frame type the Classifier hands to the Admission Unit when it arrives on port D (R141). -/
def isAdmissionType (t : Byte) : Bool := t == typSetpoint || t == typKeepalive || t == typInflow

/-- A frame type the Classifier taps when it arrives on port F (R142). -/
def isTappedType (t : Byte) : Bool := t == typPosition || t == typGauge

/-- The byte of value `k` modulo 256. -/
def byteOf (k : Nat) : Byte := BitVec.ofNat 8 k

/-- The number the bytes spell, most significant byte first (00, Byte order). -/
def beNat (bs : List Byte) : Nat := bs.foldl (fun acc b => acc * 256 + b.toNat) 0

/-- `n` bytes of the number `k`, most significant byte first; higher digits are dropped. -/
def beBytes : Nat → Nat → List Byte
  | 0, _ => []
  | n + 1, k => beBytes n (k / 256) ++ [byteOf k]

/-- The byte at an offset, 0 beyond the end. -/
def byteAt (bs : List Byte) (off : Nat) : Nat := (bs.getD off 0#8).toNat

/-- The number in `n` bytes from an offset. -/
def fieldAt (bs : List Byte) (off n : Nat) : Nat := beNat ((bs.drop off).take n)

/-- One bit into the CRC register (chapter 12): the bit is exclusive-ored into the top bit, the register is shifted
left, and the polynomial is applied when the bit that left was 1. -/
def crcBit (reg : BitVec 16) (bit : Bool) : BitVec 16 :=
  if reg.msb ^^ bit then (reg <<< 1) ^^^ 0x1021#16 else reg <<< 1

/-- One byte into the CRC register, most significant bit first. -/
def crcByte (reg : BitVec 16) (b : Byte) : BitVec 16 :=
  [7, 6, 5, 4, 3, 2, 1, 0].foldl (fun r i => crcBit r (b.getLsbD i)) reg

/-- The check value of R139: initial value all ones, no reflection, no final inversion. -/
def crc16 (bs : List Byte) : BitVec 16 := bs.foldl crcByte 0xFFFF#16

/-- The bytes the check value is computed over, in order (R139). -/
def LineFrame.checked (f : LineFrame) : List Byte :=
  f.dest :: f.typ :: byteOf f.payload.length :: f.payload

/-- The frame as it stands on the line (section 12.1), its check value high byte first. -/
def LineFrame.bytes (f : LineFrame) : List Byte :=
  f.checked ++ beBytes 2 (crc16 f.checked).toNat

/-- The damage conditions of R139 for the bytes received between a start and its end, and whether the end was marked
before a new start. -/
def frameDamaged (bytes : List Byte) (endMarked : Bool) : Bool :=
  !endMarked
  || decide (bytes.length < 5) || decide (61 < bytes.length)
  || decide (Config.payloadMax < byteAt bytes 2) || decide (byteAt bytes 2 ≠ bytes.length - 5)
  || decide (fieldAt bytes (bytes.length - 2) 2 ≠ (crc16 (bytes.take (bytes.length - 2))).toNat)

/-- A payload length lies in 0..56 (section 9.1). -/
def payloadFits (payload : List Byte) : Bool := decide (payload.length ≤ Config.payloadMax)

/-- The destination of every frame the part issues itself: the broadcast number (R140). -/
def broadcast : Byte := 0xFF#8

/-- A frame from dispatch that may go to ROUTINE unjudged (R141, R102): of a type the part does not read, or a SETPOINT of the
right length for a gate of 48..63. A MGMT_REQ goes there when it names another node. -/
def LineFrame.mayPass (f : LineFrame) : Bool :=
  payloadFits f.payload &&
    (!isAdmissionType f.typ
      || (f.typ == typSetpoint && f.payload.length == 7 && decide (48 ≤ byteAt f.payload 1)
          && decide (byteAt f.payload 1 ≤ 63)))

end Sys2Proof
end

