-- ==== Sys2Proof/WellFormed.lean ====
section
/-! DEFINITION. Which commands can occur on the line: payloads within a frame's length, and the pass and forward rows
for the frame types the part does not read on that port; a frame that claims a place of ROUTINE is one that may go there
(section 9.1, R102, R141, R142). -/

namespace Sys2Proof

/-- The command can occur. -/
def Instr.wellFormed : Instr → Bool
  | .setpoint _ payload => payloadFits payload
  | .keepalive _ payload => payloadFits payload
  | .inflow _ payload => payloadFits payload
  | .mgmtReq _ payload => payloadFits payload
  | .dispatchFramePass frame => payloadFits frame.payload && !isAdmissionType frame.typ
  | .position _ payload => payloadFits payload
  | .gauge _ payload => payloadFits payload
  | .fieldFrameForward frame => payloadFits frame.payload && !isTappedType frame.typ
  | .powerOnReset _ => true
  | .externalReset _ => true
  | .fieldReadyAsserted => true
  | .fieldReadyDeasserted => true
  | .secondTick => true
  | .modelMinute _ => true
  | .positionStale _ => true
  | .stepTimeout _ => true
  | .dwellExpiry _ => true
  | .gangDwellExpiry _ => true
  | .gaugeStale _ _ => true
  | .firstSilenceExpiry _ => true
  | .secondSilenceExpiry _ => true
  | .retainedWriteComplete => true
  | .damagedFrame _ _ _ => true
  | .incrementStart _ => true
  | .portFTxBegin .channels => true
  | .portFTxBegin (.frame frame) => frame.mayPass
  | .portFTxEnd => true
  | .portDTxBegin _ => true
  | .portDTxEnd => true
  | .mgmtBadKind => true
  | .readEntry => true
  | .openLoad => true
  | .writeEntry => true
  | .abandon => true
  | .copy => true
  | .check => true
  | .commit => true
  | .setClock => true
  | .resumeStation => true
  | .resumeGate => true
  | .forceGate => true
  | .setMemberOut => true
  | .reseedReach => true
  | .readMarks => true
  | .snapshot => true
  | .readSnapshot => true
  | .setSampler => true
  | .readTrace => true
  | .readCounts => true
  | .restart => true

end Sys2Proof
end

