-- ==== Sys2Proof/Decode.lean ====
section
/-! DEFINITION. The command a table word spells. No row of spec/opcode_table.json gives any bits, so no word spells
a command. -/

namespace Sys2Proof

/-- The command that the word `w` of `nbits` bits spells by the table's bits: none, since the table gives no row any
bits ("n_rows_with_fixed": 0, spec/98_reader.md). -/
def decodeTableWord (_nbits _w : Nat) : Option Instr := none

end Sys2Proof
end

