-- ==== Sys2Proof/Machine/Plan.lean ====
section
/-! DEFINITION. The plan: the eight tables of a bank (R151), each field at the byte width of section 12.4, so that an
entry of PENDING holds whatever was written, in range or not (R158); and the views of an entry the rules read. -/

namespace Sys2Proof

/-- A level mark of a station entry: its flag byte and its level (section 12.4, R56). -/
structure MarkEntry where
  flags : Byte
  level : Nat
  deriving DecidableEq, Repr

/-- A point of a level-storage table (R27). -/
structure Point where
  level : Nat
  storage : Nat
  deriving DecidableEq, Repr

/-- A station entry (R40). -/
structure StationEntry where
  present : Nat
  hwGauge : Nat
  twGauge : Nat
  staleLimit : Nat
  pointCount : Nat
  qminEnv : Nat
  qmaxChan : Nat
  qmaxDam : Nat
  qPreFloor : Nat
  sWatch : Nat
  sPre : Nat
  sSur : Nat
  hysteresis : Nat
  horizon : Nat
  silenceCount : Nat
  silenceBase : Nat
  compGang : Nat
  mark0 : MarkEntry
  mark1 : MarkEntry
  points : Tab 16 Point
  deriving DecidableEq, Repr

/-- A reach entry (R63). -/
structure ReachEntry where
  present : Nat
  tau : Nat
  deriving DecidableEq, Repr

/-- A rating surface (R26): `nodes.get j` is head row j, `(nodes.get j).get i` the node discharge r(i, j). -/
structure SurfaceEntry where
  present : Nat
  openingCount : Nat
  headCount : Nat
  openings : Tab 9 Nat
  heads : Tab 6 Nat
  nodes : Tab 6 (Tab 9 Nat)
  deriving DecidableEq, Repr

/-- A gate entry: binding and ramp profile (R1, R2). -/
structure GateEntry where
  present : Nat
  station : Nat
  kind : Nat
  surface : Nat
  stepUp : Nat
  stepDown : Nat
  dwellUp : Nat
  dwellDown : Nat
  deadband : Nat
  stepTimeout : Nat
  staleLimit : Nat
  fallback : Nat
  deriving DecidableEq, Repr

/-- A gang entry (R76). -/
structure GangEntry where
  present : Nat
  memberCount : Nat
  members : Tab 8 Nat
  spread : Nat
  dwellUp : Nat
  dwellDown : Nat
  deriving DecidableEq, Repr

/-- An authority entry (section 6.2). -/
structure AuthEntry where
  present : Nat
  issuer : Nat
  base : Nat
  mask : Nat
  rights : Byte
  deriving DecidableEq, Repr

/-- A schedule entry (R134). -/
structure SchedEntry where
  present : Nat
  enables : Byte
  day : Nat
  hour : Nat
  minute : Nat
  mode : Nat
  gate : Nat
  opening : Nat
  deriving DecidableEq, Repr

/-- A bank of the Plan Store (R151). -/
structure Plan where
  number : Nat
  stations : Tab 6 StationEntry
  reaches : Tab 5 ReachEntry
  surfaces : Tab 12 SurfaceEntry
  gates : Tab 48 GateEntry
  gangs : Tab 8 GangEntry
  auth : Tab 16 AuthEntry
  sched : Tab 32 SchedEntry
  deriving DecidableEq, Repr

/-- An entry counts as present by its present byte: 1 present, 0 absent (section 12.4), any other value free
(log 13). -/
def presentByte (b : Nat) : Bool :=
  if b = 1 then true else if b = 0 then false else Config.presentOther b

def StationEntry.isPresent (e : StationEntry) : Bool := presentByte e.present
def ReachEntry.isPresent (e : ReachEntry) : Bool := presentByte e.present
def SurfaceEntry.isPresent (e : SurfaceEntry) : Bool := presentByte e.present
def GateEntry.isPresent (e : GateEntry) : Bool := presentByte e.present
def GangEntry.isPresent (e : GangEntry) : Bool := presentByte e.present
def AuthEntry.isPresent (e : AuthEntry) : Bool := presentByte e.present
def SchedEntry.isPresent (e : SchedEntry) : Bool := presentByte e.present

/-- The all-zero mark entry. -/
def MarkEntry.zero : MarkEntry := { flags := 0#8, level := 0 }

/-- The absent entries of the empty plan (R151), every byte 0 (log 27). -/
def StationEntry.absent : StationEntry :=
  { present := 0, hwGauge := 0, twGauge := 0, staleLimit := 0, pointCount := 0, qminEnv := 0, qmaxChan := 0,
    qmaxDam := 0, qPreFloor := 0, sWatch := 0, sPre := 0, sSur := 0, hysteresis := 0, horizon := 0,
    silenceCount := 0, silenceBase := 0, compGang := 0, mark0 := MarkEntry.zero, mark1 := MarkEntry.zero,
    points := Tab.gen fun _ => { level := 0, storage := 0 } }
def ReachEntry.absent : ReachEntry := { present := 0, tau := 0 }
def SurfaceEntry.absent : SurfaceEntry :=
  { present := 0, openingCount := 0, headCount := 0, openings := Tab.gen fun _ => 0, heads := Tab.gen fun _ => 0,
    nodes := Tab.gen fun _ => Tab.gen fun _ => 0 }
def GateEntry.absent : GateEntry :=
  { present := 0, station := 0, kind := 0, surface := 0, stepUp := 0, stepDown := 0, dwellUp := 0, dwellDown := 0,
    deadband := 0, stepTimeout := 0, staleLimit := 0, fallback := 0 }
def GangEntry.absent : GangEntry :=
  { present := 0, memberCount := 0, members := Tab.gen fun _ => 0, spread := 0, dwellUp := 0, dwellDown := 0 }
def AuthEntry.absent : AuthEntry := { present := 0, issuer := 0, base := 0, mask := 0, rights := 0#8 }
def SchedEntry.absent : SchedEntry :=
  { present := 0, enables := 0#8, day := 0, hour := 0, minute := 0, mode := 0, gate := 0, opening := 0 }

/-- The empty plan: plan number 0 and every entry absent (R151). -/
def Plan.empty : Plan :=
  { number := 0
    stations := Tab.gen fun _ => StationEntry.absent
    reaches := Tab.gen fun _ => ReachEntry.absent
    surfaces := Tab.gen fun _ => SurfaceEntry.absent
    gates := Tab.gen fun _ => GateEntry.absent
    gangs := Tab.gen fun _ => GangEntry.absent
    auth := Tab.gen fun _ => AuthEntry.absent
    sched := Tab.gen fun _ => SchedEntry.absent }

/-- The flood stages, in rising order (R41, R51). -/
inductive Stage where
  | normal | watch | preRelease | surcharge
  deriving DecidableEq, Repr

/-- The stage's code (section 12.3), which is also its order (R51). -/
def Stage.code : Stage → Nat
  | .normal => 0
  | .watch => 1
  | .preRelease => 2
  | .surcharge => 3

/-- The greater of two stages. -/
def Stage.max (a b : Stage) : Stage := if a.code < b.code then b else a

/-- The next lower stage; NORMAL has none below it. -/
def Stage.pred : Stage → Stage
  | .normal => .normal
  | .watch => .normal
  | .preRelease => .watch
  | .surcharge => .preRelease

/-- The mark is present in the plan: bit 7 of its flag byte (section 12.4). -/
def MarkEntry.isPresent (m : MarkEntry) : Bool := m.flags.getLsbD 7

/-- The mark's direction code: bits 6–5, 1 RISING, 2 FALLING, 3 EITHER. -/
def MarkEntry.direction (m : MarkEntry) : Nat := m.flags.toNat / 32 % 4

/-- The mark's floor stage: bits 1–0, 0 none. -/
def MarkEntry.floor (m : MarkEntry) : Option Stage :=
  match m.flags.toNat % 4 with
  | 1 => some .watch
  | 2 => some .preRelease
  | 3 => some .surcharge
  | _ => none

/-- The mark counts rising crossings: RISING or EITHER (R57). -/
def MarkEntry.countsRising (m : MarkEntry) : Bool := m.direction == 1 || m.direction == 3

/-- The mark counts falling crossings: FALLING or EITHER (R57). -/
def MarkEntry.countsFalling (m : MarkEntry) : Bool := m.direction == 2 || m.direction == 3

/-- The compensation gang of a station entry, 255 standing for none (section 12.4). -/
def StationEntry.compGang? (e : StationEntry) : Option GangId := toFin? 8 e.compGang

/-- The points of the level-storage table within its count (R27, section 12.4). -/
def StationEntry.pointList (e : StationEntry) : List Point := e.points.list.take e.pointCount

/-- The silence period in seconds (R118). -/
def StationEntry.silencePeriod (e : StationEntry) : Nat := e.silenceCount * e.silenceBase

/-- The opening breakpoints within their count (R26). -/
def SurfaceEntry.openingList (e : SurfaceEntry) : List Nat := e.openings.list.take e.openingCount

/-- The head breakpoints within their count (R26). -/
def SurfaceEntry.headList (e : SurfaceEntry) : List Nat := e.heads.list.take e.headCount

/-- The node discharge r(i, j) (R26); 0 beyond the table. -/
def SurfaceEntry.node (e : SurfaceEntry) (i j : Nat) : Nat :=
  match toFin? 6 j, toFin? 9 i with
  | some j, some i => (e.nodes.get j).get i
  | _, _ => 0

/-- The gate is a turbine wicket gate (R1, kind 0 of section 12.4). -/
def GateEntry.isWicket (e : GateEntry) : Bool := e.kind == 0

/-- The gate's station. -/
def GateEntry.station? (e : GateEntry) : Option StationId := toFin? 6 e.station

/-- The gate's fallback target, 65535 standing for none (section 12.4). -/
def GateEntry.fallback? (e : GateEntry) : Option Nat := if e.fallback = 65535 then none else some e.fallback

/-- The member numbers within their count, in list order (R76). -/
def GangEntry.memberList (e : GangEntry) : List Nat := e.members.list.take e.memberCount

/-- The members as channels, in list order. -/
def GangEntry.memberGates (e : GangEntry) : List Gate := e.memberList.filterMap (toFin? 48)

/-- The members of a gang of the plan, none for an absent gang. -/
def Plan.membersOf (p : Plan) (k : GangId) : List Gate :=
  if (p.gangs.get k).isPresent then (p.gangs.get k).memberGates else []

/-- The gang whose member list names the gate (R1). -/
def Plan.gangOf (p : Plan) (g : Gate) : Option GangId :=
  (allFin 8).find? fun k => (p.membersOf k).contains g

/-- The gate is bound: its entry is present (R1). -/
def Plan.bound (p : Plan) (g : Gate) : Bool := (p.gates.get g).isPresent

/-- The gate is bound to station `k` (R1). -/
def Plan.boundTo (p : Plan) (k : StationId) (g : Gate) : Bool :=
  p.bound g && decide ((p.gates.get g).station? = some k)

/-- The bound gates of a station, ascending. -/
def Plan.gatesOf (p : Plan) (k : StationId) : List Gate := (allFin 48).filter (p.boundTo k)

/-- The present gangs whose members belong to the station, ascending. -/
def Plan.gangsOf (p : Plan) (k : StationId) : List GangId :=
  (allFin 8).filter fun c =>
    match p.membersOf c with
    | g :: _ => decide ((p.gates.get g).station? = some k)
    | [] => false

/-- The station is present in the plan (R40). -/
def Plan.hasStation (p : Plan) (k : StationId) : Bool := (p.stations.get k).isPresent

/-- The reach is present in the plan (R63). -/
def Plan.hasReach (p : Plan) (k : ReachId) : Bool := (p.reaches.get k).isPresent

/-- The upper station of a reach. -/
def upperOf (k : ReachId) : StationId := ⟨k.1, by omega⟩

/-- The lower station of a reach. -/
def lowerOf (k : ReachId) : StationId := ⟨k.1 + 1, by omega⟩

/-- What a channel compares at a commit: station, kind, surface and derived gang (R24). -/
structure Binding where
  station : Nat
  kind : Nat
  surface : Nat
  gang : Option GangId
  deriving DecidableEq, Repr

/-- A gate's binding in a plan, none when its entry is absent (R1). -/
def Plan.binding (p : Plan) (g : Gate) : Option Binding :=
  if p.bound g then
    some { station := (p.gates.get g).station, kind := (p.gates.get g).kind, surface := (p.gates.get g).surface,
           gang := p.gangOf g }
  else none

/-- The rights of an authority entry (section 12.4). -/
def AuthEntry.command (e : AuthEntry) : Bool := e.rights.getLsbD 0
def AuthEntry.override (e : AuthEntry) : Bool := e.rights.getLsbD 1
def AuthEntry.manage (e : AuthEntry) : Bool := e.rights.getLsbD 2

/-- The present authority entry naming an issuer (R100). -/
def Plan.authFor (p : Plan) (issuer : Nat) : Option AuthEntry :=
  p.auth.list.find? fun e => e.isPresent && e.issuer == issuer

/-- The issuer holds MANAGE for management requests (R154 step 1). Issuers are numbered 0 to 63, and a request's issuer byte of 64
to 255 is judged as any other: named by no entry that passes R161, it holds MANAGE while no present entry has that right, and
else it does not (log 32). -/
def Plan.manages (p : Plan) (issuer : Nat) : Bool :=
  if p.auth.list.any fun e => e.isPresent && e.manage then
    match p.authFor issuer with
    | some e => e.manage
    | none => false
  else true

/-- The gate lies in the entry's window: it agrees with the base wherever the mask has a 1 (R101). -/
def AuthEntry.inWindow (e : AuthEntry) (gate : Nat) : Bool :=
  (BitVec.ofNat 6 gate &&& BitVec.ofNat 6 e.mask) == (BitVec.ofNat 6 e.base &&& BitVec.ofNat 6 e.mask)

/-- The schedule entry's enable flags (section 12.4). -/
def SchedEntry.dayOn (e : SchedEntry) : Bool := e.enables.getLsbD 0
def SchedEntry.hourOn (e : SchedEntry) : Bool := e.enables.getLsbD 1
def SchedEntry.minuteOn (e : SchedEntry) : Bool := e.enables.getLsbD 2

/-- The entry fires at the first match only (mode code 0, R134). -/
def SchedEntry.once (e : SchedEntry) : Bool := e.mode == 0

end Sys2Proof
end

