-- ==== Sys2Proof/Machine/State.lean ====
section
/-! DEFINITION. The state of the part: every record, queue, count, timer, mark and pin the manual gives it, as plain data,
and the queue of commands that wait. -/

namespace Sys2Proof.Machine

/-- Why the part stops. The manual names no condition that stops it, so there is none: no command faults. -/
inductive Fault where
  deriving DecidableEq, Repr

/-- Why a command has no meaning. -/
inductive Refusal where
  /-- Raised by an arm of `exec` whose command has no meaning yet; safe (nothing can be proved of it). No arm raises
  it now. -/
  | notModelled (mnemonic : String)
  deriving DecidableEq, Repr

/-- The causes of a hold (R3). -/
inductive HoldCause where
  | silence | gang | stall
  deriving DecidableEq, Repr

/-- The causes of FAULT (R3). -/
inductive FaultCause where
  | drive | trip
  deriving DecidableEq, Repr

/-- The origin of a governed target (R3). -/
inductive Source where
  | none | dispatch | schedule | fallback | compensation | force
  deriving DecidableEq, Repr

/-- How admission changed the last request (R3). -/
inductive ClampMark where
  | none | range | capMax | capMin | unreachableMin
  deriving DecidableEq, Repr

/-- The direction of an increment (R12). -/
inductive Dir where
  | up | down
  deriving DecidableEq, Repr

/-- A channel's state with what it holds only there (R3, section 1.2): the step target and the ticks left of the step
timeout in STEP, the ticks left of the own dwell timer in DWELL (none for a gang member, which dwells on the gang's
dwell), the hold cause in HOLD and the fault cause in FAULT. A timer at 0 has expired and its expiry is not yet taken
(log 3). -/
inductive ChanState where
  | unbound
  | wait
  | idle
  | step (target : Nat) (timer : Nat)
  | dwell (own : Option Nat)
  | hold (cause : HoldCause)
  | localHand
  | fault (cause : FaultCause)
  deriving DecidableEq, Repr

/-- The dynamic state of a channel (R3). `staleDue` says that a tick brought the age to the limit and the staleness is
not yet taken (R9, log 3). -/
structure Channel where
  state : ChanState
  source : Source
  measured : Option Nat
  stale : Bool
  staleDue : Bool
  age : Nat
  governed : Option Nat
  start : Option Nat
  dwellDir : Option Dir
  clamp : ClampMark
  tag : Nat
  silencePending : Bool
  deriving DecidableEq, Repr

/-- A channel's reset values, in a given state (R3). -/
def Channel.resetAs (st : ChanState) : Channel :=
  { state := st, source := .none, measured := none, stale := false, staleDue := false, age := 0, governed := none,
    start := none, dwellDir := none, clamp := .none, tag := 0, silencePending := false }

/-- A day of year and a second of day (R129). -/
structure PlantTime where
  day : Nat
  second : Nat
  deriving DecidableEq, Repr

/-- The clock counters (R129). -/
structure Clock where
  year : Nat
  day : Nat
  hour : Nat
  minute : Nat
  second : Nat
  deriving DecidableEq, Repr

/-- The counters after power-on (R129). -/
def Clock.powerOn : Clock := { year := 0, day := 1, hour := 0, minute := 0, second := 0 }

/-- The plant time the clock publishes (R129). -/
def Clock.plantTime (c : Clock) : PlantTime :=
  { day := c.day, second := c.hour * 3600 + c.minute * 60 + c.second }

/-- The qualities a headwater record keeps (R41). -/
inductive Quality where
  | good | suspect
  deriving DecidableEq, Repr

/-- A gauge record (R41, R45). `staleDue` as for a channel. -/
structure GaugeRec where
  level : Option Nat
  age : Nat
  stale : Bool
  staleDue : Bool
  deriving DecidableEq, Repr

/-- A gauge record after a reset (R41). -/
def GaugeRec.reset : GaugeRec := { level := none, age := 0, stale := false, staleDue := false }

/-- What a level mark recorded (R57). -/
structure MarkCapture where
  time : PlantTime
  level : Nat
  rising : Bool
  deriving DecidableEq, Repr

/-- A mark's capture with its unread and overwrite marks (R41). -/
structure MarkRec where
  capture : Option MarkCapture
  unread : Bool
  overwrite : Bool
  deriving DecidableEq, Repr

/-- A mark record after a reset (R41). -/
def MarkRec.reset : MarkRec := { capture := none, unread := false, overwrite := false }

/-- A station record (R41). `positioned` is the indication of R65 that the outflow event hands to the reach. -/
structure Station where
  hw : GaugeRec
  hwQuality : Option Quality
  tw : GaugeRec
  storage : Nat
  storageValid : Bool
  qLocal : Nat
  arrival : Nat
  qOut : Nat
  sPred : Option Nat
  stage : Stage
  qmin : Nat
  qmax : Nat
  mark0 : MarkRec
  mark1 : MarkRec
  positioned : Bool
  deriving DecidableEq, Repr

/-- A station record after a reset, with the window given (R41). -/
def Station.resetWith (qmin qmax : Nat) : Station :=
  { hw := GaugeRec.reset, hwQuality := none, tw := GaugeRec.reset, storage := 0, storageValid := false, qLocal := 0,
    arrival := 0, qOut := 0, sPred := none, stage := .normal, qmin := qmin, qmax := qmax, mark0 := MarkRec.reset,
    mark1 := MarkRec.reset, positioned := false }

/-- The silence levels (R117): 0, the hold and the fallback. -/
inductive SilenceLevel where
  | l0 | l1 | l2
  deriving DecidableEq, Repr

/-- The level as the number of R117. -/
def SilenceLevel.code : SilenceLevel → Nat
  | .l0 => 0
  | .l1 => 1
  | .l2 => 2

/-- A silence record (R117): a timer that is stopped (`none`) or has ticks remaining; at 0 its expiry is not yet taken
(log 3). -/
structure SilenceRec where
  level : SilenceLevel
  timer : Option Nat
  deriving DecidableEq, Repr

/-- A parcel of a reach line (R64). -/
structure Parcel where
  flow : Nat
  minutes : Nat
  deriving DecidableEq, Repr

/-- The dynamic state of a reach (R64), the line oldest first. -/
structure Reach where
  line : List Parcel
  unseeded : Bool
  coarse : Nat
  deriving DecidableEq, Repr

/-- An absent reach holds no line (R63, log 16). -/
def Reach.absent : Reach := { line := [], unseeded := true, coarse := 0 }

/-- A present reach after a reset (R64). -/
def Reach.resetWith (tau : Nat) : Reach :=
  { line := [{ flow := 0, minutes := tau }], unseeded := true, coarse := 0 }

/-- A running gang dwell (R77): its direction, the ticks remaining and the dwelling member; at 0 remaining its expiry
is not yet taken (log 3). -/
structure GangDwell where
  dir : Dir
  remaining : Nat
  member : Gate
  deriving DecidableEq, Repr

/-- The dynamic state of a gang (R77). `out` lists the members whose out marks are set, in list order. -/
structure Gang where
  holder : Option Gate
  lastMover : Option Gate
  dwell : Option GangDwell
  out : List Gate
  hold : Bool
  deriving DecidableEq, Repr

/-- The record of an absent gang (log 16). -/
def Gang.absent : Gang := { holder := none, lastMover := none, dwell := none, out := [], hold := false }

/-- A gang with every dynamic field at its reset value but for the hold flag (R77). -/
def Gang.resetWith (members : List Gate) (hold : Bool) : Gang :=
  { holder := none, lastMover := members.getLast?, dwell := none, out := [], hold := hold }

/-- The counts of a port (R143). -/
structure PortCounts where
  received : Nat
  damaged : Nat
  dropped : Nat
  deriving DecidableEq, Repr

/-- The counts after a reset (R143). -/
def PortCounts.zero : PortCounts := { received := 0, damaged := 0, dropped := 0 }

/-- The causes of rejection (R98). -/
inductive RejectCause where
  | unknownIssuer | noRight | outOfWindow | gateUnbound | gateUnavailable | stationAbsent
  deriving DecidableEq, Repr

/-- The reject counts (R98). -/
structure RejectCounts where
  unknownIssuer : Nat
  noRight : Nat
  outOfWindow : Nat
  gateUnbound : Nat
  gateUnavailable : Nat
  stationAbsent : Nat
  deriving DecidableEq, Repr

/-- The reject counts after a reset (R98). -/
def RejectCounts.zero : RejectCounts :=
  { unknownIssuer := 0, noRight := 0, outOfWindow := 0, gateUnbound := 0, gateUnavailable := 0, stationAbsent := 0 }

/-- The channels waiting for room in one queue: `settled` in the order they began to wait, `fresh` those that began to
wait within the event being taken, ascending (R144). Between events `fresh` is empty. -/
structure WaitList where
  settled : List Gate
  fresh : List Gate
  deriving DecidableEq, Repr

/-- No channel waits. -/
def WaitList.empty : WaitList := { settled := [], fresh := [] }

/-- Line port F (R144 to R146). -/
structure PortF where
  urgent : List LineFrame
  routine : List LineFrame
  streak : Nat
  sending : Option LineFrame
  counts : PortCounts
  waitUrgent : WaitList
  waitRoutine : WaitList
  deriving DecidableEq, Repr

/-- Port F after a reset (R143 to R146, R150). -/
def PortF.reset : PortF :=
  { urgent := [], routine := [], streak := 0, sending := none, counts := PortCounts.zero,
    waitUrgent := WaitList.empty, waitRoutine := WaitList.empty }

/-- The notice kinds (section 12.3). -/
inductive NoticeKind where
  | stageChange | windowClamp | admitReject | stepStall | gateFault | gateTrip | gateLocal | gateReturn | positionStale
  | gangHold | gangRelease | compensation | silenceHold | silenceFallback | silenceResume | scheduleFired
  | scheduleDiscarded | markCrossed | gaugeStale | gaugeFresh | reachCoarsened | reachReseeded | planCommitted | planLost
  | clockSet | restarted
  deriving DecidableEq, Repr

/-- What a notice is about (R165). -/
inductive Subject where
  | none
  | gate (n : Nat)
  | station (n : Nat)
  | reach (n : Nat)
  | gang (n : Nat)
  | issuer (n : Nat)
  deriving DecidableEq, Repr

/-- A notice (R165). -/
structure Notice where
  kind : NoticeKind
  subject : Subject
  time : PlantTime
  detail : Nat
  value : Nat
  gap : Bool
  deriving DecidableEq, Repr

/-- The reply statuses (section 12.2). -/
inductive Status where
  | done | refusedRights | refusedState | badArgument | invalidPlan
  deriving DecidableEq, Repr

/-- A reply to a management request (section 10.3). -/
structure Reply where
  issuer : Byte
  kind : Byte
  tag : Nat
  status : Status
  results : List Byte
  deriving DecidableEq, Repr

/-- The part's own frames on port D (R147). -/
inductive OwnFrame where
  | notice (n : Notice)
  | reply (r : Reply)
  deriving DecidableEq, Repr

/-- The queues of port D (R148). -/
inductive UpQueue where
  | fwd | own
  deriving DecidableEq, Repr

/-- Line port D (R147, R148). -/
structure PortD where
  fwd : List LineFrame
  own : List OwnFrame
  reserved : Nat
  lastFrom : UpQueue
  sending : Option LineFrame
  counts : PortCounts
  deriving DecidableEq, Repr

/-- Port D after a reset, before the RESTARTED notice (R143, R147, R148, R150). -/
def PortD.reset : PortD :=
  { fwd := [], own := [], reserved := 0, lastFrom := .fwd, sending := none, counts := PortCounts.zero }

/-- The parts of a model minute's work that are still to be taken: the outflow events, the balance of the stations named, the
schedule (R131, log 4). -/
structure MinuteDue where
  outflow : Bool
  balance : List StationId
  schedule : Bool
  deriving DecidableEq, Repr

/-- No work of a minute is owed. -/
def MinuteDue.none : MinuteDue := { outflow := false, balance := [], schedule := false }

/-- All work of a minute is owed. -/
def MinuteDue.all : MinuteDue := { outflow := true, balance := allFin 6, schedule := true }

/-- The retained copy, and whether the check value kept with it agrees with it (R153, log 11). -/
structure Retained where
  plan : Plan
  agrees : Bool
  deriving DecidableEq, Repr

/-- The Plan Store (R151, R153, R157). `run` is the remaining count of the open load run. -/
structure PlanStore where
  active : Plan
  planPending : Plan
  run : Option Nat
  retained : Retained
  writing : Bool
  deriving DecidableEq, Repr

/-- What a snapshot captures of a present station (R166). -/
structure StationSnap where
  stage : Stage
  storage : Nat
  storageValid : Bool
  sPred : Option Nat
  hwLevel : Option Nat
  hwQuality : Option Quality
  hwStale : Bool
  twLevel : Option Nat
  twStale : Bool
  qOut : Nat
  arrival : Nat
  planned : Nat
  qmin : Nat
  qmax : Nat
  level : SilenceLevel
  deriving DecidableEq, Repr

/-- What a snapshot captures of a channel (R166). -/
structure ChannelSnap where
  state : ChanState
  source : Source
  measured : Option Nat
  stale : Bool
  governed : Option Nat
  start : Option Nat
  clamp : ClampMark
  deriving DecidableEq, Repr

/-- What a snapshot captures of a present reach (R74, R166). -/
structure ReachSnap where
  parcels : Nat
  volume : Nat
  nextArrival : Nat
  unseeded : Bool
  deriving DecidableEq, Repr

/-- A capture of the part (R166): absent stations and reaches are captured as absent. -/
structure Snapshot where
  year : Nat
  time : PlantTime
  stations : Tab 6 (Option StationSnap)
  channels : Tab 48 ChannelSnap
  reaches : Tab 5 (Option ReachSnap)
  deriving DecidableEq, Repr

/-- The causes that end a trace (R169). -/
inductive EndCause where
  | reached | superseded | held | faulted | unbound
  deriving DecidableEq, Repr

/-- The trace of a tagged command, still being followed (R169). -/
structure Trace where
  issuer : Nat
  gate : Gate
  opening : Nat
  governed : Nat
  clamp : ClampMark
  qmin : Nat
  qmax : Nat
  planned : Nat
  admitted : PlantTime
  enqueued : Option PlantTime
  deriving DecidableEq, Repr

/-- A trace that has ended (R169); the end state is coded as on the gate pages. -/
structure TraceRecord where
  trace : Trace
  ended : PlantTime
  cause : EndCause
  endState : Nat
  deriving DecidableEq, Repr

/-- The trace sampler (section 11.3): `tagged` is present while a command is followed, `record` while it is valid. -/
structure Sampler where
  interval : Nat
  countdown : Nat
  tagged : Option Trace
  record : Option TraceRecord
  deriving DecidableEq, Repr

/-- The sampler after a reset (section 11.3). -/
def Sampler.reset : Sampler := { interval := 0, countdown := 0, tagged := none, record := none }

/-- The Report Unit (R165, R166, section 11.3). -/
structure Report where
  gapMark : Bool
  snapshot : Option Snapshot
  sampler : Sampler
  deriving DecidableEq, Repr

/-- The Report Unit after a reset. -/
def Report.reset : Report := { gapMark := false, snapshot := none, sampler := Sampler.reset }

/-- The state of the part. `pending` is the queue of commands that wait, `freeCount` the model's own counter of the free
bytes it used (log 14); `told` says that the Responder has been told of room and another event is taken first (R149,
log 6). -/
structure State where
  pending : List Instr
  straps : Byte
  fieldReady : Bool
  node : Option Byte
  portF : PortF
  portD : PortD
  inbox : List (List Byte)
  told : Bool
  chans : Tab 48 Channel
  stations : Tab 6 Station
  silence : Tab 6 SilenceRec
  reaches : Tab 5 Reach
  gangs : Tab 8 Gang
  rejects : RejectCounts
  clock : Clock
  prescaler : Nat
  minuteDue : MinuteDue
  armed : Tab 32 Bool
  store : PlanStore
  report : Report
  freeCount : Nat
  deriving DecidableEq, Repr

/-- The machine right after a power-on reset with the retained copy of log 11 and the pin levels of log 12: the empty
plan is ACTIVE, so every channel is UNBOUND and no station, reach or gang is present, and UP_OWN holds the RESTARTED
notice (R150, R153, R165). -/
def State.reset : State :=
  { pending := []
    straps := 0#8
    fieldReady := false
    node := some 0#8
    portF := PortF.reset
    portD := { PortD.reset with
      own := [.notice { kind := .restarted, subject := .none, time := Clock.powerOn.plantTime, detail := 0, value := 0,
                        gap := false }] }
    inbox := []
    told := false
    chans := Tab.gen fun _ => Channel.resetAs .unbound
    stations := Tab.gen fun _ => Station.resetWith 0 0
    silence := Tab.gen fun _ => { level := .l0, timer := none }
    reaches := Tab.gen fun _ => Reach.absent
    gangs := Tab.gen fun _ => Gang.absent
    rejects := RejectCounts.zero
    clock := Clock.powerOn
    prescaler := 0
    minuteDue := MinuteDue.none
    armed := Tab.gen fun _ => false
    store := { active := Plan.empty, planPending := Plan.empty, run := none,
               retained := { plan := Plan.empty, agrees := true }, writing := false }
    report := Report.reset
    freeCount := 0 }

end Sys2Proof.Machine
end

