-- ==== Sys2Proof/Machine/Flags.lean ====
section
/-! DEFINITION. The codes in which notices, replies, snapshots and traces carry enumerated values, and the packing of a
notice's detail and value (section 12.3). -/

namespace Sys2Proof.Machine

/-- Channel state code (section 12.3, gate pages). -/
def ChanState.code : ChanState → Nat
  | .unbound => 0
  | .wait => 1
  | .idle => 2
  | .step _ _ => 3
  | .dwell _ => 4
  | .hold _ => 5
  | .localHand => 6
  | .fault _ => 7

/-- Cause code of a channel state: HOLD 1 SILENCE, 2 GANG, 3 STALL; FAULT 1 DRIVE, 2 TRIP; 0 elsewhere. -/
def ChanState.causeCode : ChanState → Nat
  | .hold .silence => 1
  | .hold .gang => 2
  | .hold .stall => 3
  | .fault .drive => 1
  | .fault .trip => 2
  | _ => 0

/-- The step target of a channel state, present only in STEP (R3). -/
def ChanState.stepTarget : ChanState → Option Nat
  | .step t _ => some t
  | _ => none

/-- Source code (section 12.3). -/
def Source.code : Source → Nat
  | .none => 0
  | .dispatch => 1
  | .schedule => 2
  | .fallback => 3
  | .compensation => 4
  | .force => 5

/-- Clamp mark code (section 12.3). -/
def ClampMark.code : ClampMark → Nat
  | .none => 0
  | .range => 1
  | .capMax => 2
  | .capMin => 3
  | .unreachableMin => 4

/-- Reject cause code (section 12.3). -/
def RejectCause.code : RejectCause → Nat
  | .unknownIssuer => 1
  | .noRight => 2
  | .outOfWindow => 3
  | .gateUnbound => 4
  | .gateUnavailable => 5
  | .stationAbsent => 6

/-- Notice kind code (section 12.3). -/
def NoticeKind.code : NoticeKind → Nat
  | .stageChange => 1
  | .windowClamp => 2
  | .admitReject => 3
  | .stepStall => 4
  | .gateFault => 5
  | .gateTrip => 6
  | .gateLocal => 7
  | .gateReturn => 8
  | .positionStale => 9
  | .gangHold => 10
  | .gangRelease => 11
  | .compensation => 12
  | .silenceHold => 13
  | .silenceFallback => 14
  | .silenceResume => 15
  | .scheduleFired => 16
  | .scheduleDiscarded => 17
  | .markCrossed => 18
  | .gaugeStale => 19
  | .gaugeFresh => 20
  | .reachCoarsened => 21
  | .reachReseeded => 22
  | .planCommitted => 23
  | .planLost => 24
  | .clockSet => 25
  | .restarted => 26

/-- Subject class code (section 12.3). -/
def Subject.classCode : Subject → Nat
  | .none => 0
  | .gate _ => 1
  | .station _ => 2
  | .reach _ => 3
  | .gang _ => 4
  | .issuer _ => 5

/-- Subject number, none for a notice without subject. -/
def Subject.number : Subject → Option Nat
  | .none => Option.none
  | .gate n => some n
  | .station n => some n
  | .reach n => some n
  | .gang n => some n
  | .issuer n => some n

/-- Status byte (section 12.2). -/
def Status.code : Status → Nat
  | .done => 0
  | .refusedRights => 1
  | .refusedState => 2
  | .badArgument => 3
  | .invalidPlan => 4

/-- Trace end cause code (section 12.3). -/
def EndCause.code : EndCause → Nat
  | .reached => 1
  | .superseded => 2
  | .held => 3
  | .faulted => 4
  | .unbound => 5

/-- Gauge role code (section 12.3). -/
def roleCode : GaugeRole → Nat
  | .headwater => 0
  | .tailwater => 1

/-- Quality code of GAUGE_FRESH (section 12.3). -/
def Quality.code : Quality → Nat
  | .good => 0
  | .suspect => 1

/-- Two 8-bit fields of a detail: bits 15–8 and 7–0. -/
def packDetail (hi lo : Nat) : Nat := hi * 256 + lo

/-- Two 16-bit fields of a value: upper and lower half. -/
def packValue (hi lo : Nat) : Nat := hi * 65536 + lo

/-- Four 4-bit fields of a detail: bits 15–12, 11–8, 7–4, 3–0. -/
def packNibbles (a b c d : Nat) : Nat := a * 4096 + b * 256 + c * 16 + d

/-- One more on a count that stops at 4,294,967,295 (R98, R143, R67). -/
def countUp (n : Nat) : Nat := if n < Config.countMax then n + 1 else n

/-- One more on an age that stops at 65535 (R9, R45). -/
def ageUp (n : Nat) : Nat := if n < Config.ageMax then n + 1 else n

end Sys2Proof.Machine
end

