-- ==== Sys2Proof/Machine/Operands.lean ====
section
/-! DEFINITION. The operand forms: the fields of each frame type's payload (section 12.1, R172) and of a management request
(section 12.2). -/

namespace Sys2Proof.Machine

/-- Payload length of each frame type the part reads (section 12.1). -/
def setpointLen : Nat := 7
def positionLen : Nat := 4
def gaugeLen : Nat := 4
def keepaliveLen : Nat := 2
def inflowLen : Nat := 5

/-- The fields of a SETPOINT payload. -/
structure SetpointFields where
  issuer : Nat
  gate : Nat
  opening : Nat
  override : Bool
  tag : Nat
  deriving DecidableEq, Repr

/-- The fields of a SETPOINT payload: 0:1 issuer; 1:1 gate; 2:2 opening; 4:1 flags, bit 0 OVERRIDE; 5:2 tag. -/
def readSetpoint (p : List Byte) : SetpointFields :=
  { issuer := byteAt p 0, gate := byteAt p 1, opening := fieldAt p 2 2, override := (p.getD 4 0#8).getLsbD 0,
    tag := fieldAt p 5 2 }

/-- The flags of a POSITION frame, judged by the most severe one (R4). -/
inductive PositionFlag where
  | clear | localHand | fault | trip
  deriving DecidableEq, Repr

/-- The most severe flag of a flag byte: bit 2 TRIP, then bit 1 FAULT, then bit 0 LOCAL; the others are not read
(R4, R172). -/
def severest (flags : Byte) : PositionFlag :=
  if flags.getLsbD 2 then .trip else if flags.getLsbD 1 then .fault else if flags.getLsbD 0 then .localHand else .clear

/-- A gauge quality byte: 0 GOOD, 1 SUSPECT, every other value BAD (R172). -/
def readQuality (b : Nat) : Option Quality :=
  match b with
  | 0 => some .good
  | 1 => some .suspect
  | _ => none

/-- The issuer, kind and tag of a management request, 0 for a byte that is missing (R172). -/
def reqIssuer (p : List Byte) : Byte := p.getD 0 0#8
def reqKind (p : List Byte) : Byte := p.getD 1 0#8
def reqTag (p : List Byte) : Nat := byteAt p 2 * 256 + byteAt p 3
/-- The arguments of a management request (section 12.1). -/
def reqArgs (p : List Byte) : List Byte := p.drop 4

/-- What the Management Responder is asked for, by the table's rows; `badKind` is a request of no row, and the two
PLAN_CONTROL actions of one permitted set have a value of their own (R154, R159, log 7). -/
inductive Request where
  | badKind | readEntry | openLoad | writeEntry | abandon | copy | abandonCopy | check | commit | setClock
  | resumeStation | resumeGate | forceGate | setMemberOut | reseedReach | readMarks | snapshot | readSnapshot | setSampler
  | readTrace | readCounts | restart
  deriving DecidableEq, Repr

/-- The permitted action sets of PLAN_CONTROL (R159): bit 0 ABANDON, 1 COPY, 2 CHECK, 3 COMMIT. A byte with a bit of 4 to 7
set is taken for no permitted set (log 22). -/
def planAction (args : List Byte) : Request :=
  match args.map BitVec.toNat with
  | [1] => .abandon
  | [2] => .copy
  | [3] => .abandonCopy
  | [4] => .check
  | [8] => .commit
  | _ => .badKind

/-- The request a payload of at least 4 bytes makes by its kind byte (section 12.2); a shorter one makes none
(R172). -/
def readRequest (p : List Byte) : Request :=
  if p.length < 4 then .badKind
  else
    match (reqKind p).toNat with
    | 1 => .readEntry
    | 2 => .openLoad
    | 3 => .writeEntry
    | 4 => planAction (reqArgs p)
    | 5 => .setClock
    | 6 => .resumeStation
    | 7 => .resumeGate
    | 8 => .forceGate
    | 9 => .setMemberOut
    | 10 => .reseedReach
    | 11 => .readMarks
    | 12 => .snapshot
    | 13 => .readSnapshot
    | 14 => .setSampler
    | 15 => .readTrace
    | 16 => .readCounts
    | 17 => .restart
    | _ => .badKind

/-- A single-byte argument list, as its number. -/
def oneByte (args : List Byte) : Option Nat :=
  match args with
  | [b] => some b.toNat
  | _ => none

end Sys2Proof.Machine
end

