-- ==== Sys2Proof/Machine/Rating.lean ====
section
/-! DEFINITION. The Rating Engine (chapter 2): straight-line tables, column values, forward discharge, the two inverses
and the level-storage conversions. Everything is formed exactly in `Int` and rounded where the rule says. -/

namespace Sys2Proof.Machine

/-- The last index whose entry meets `p`, counting from `i`; `best` when none does. -/
def lastIdxFrom {α : Type} (p : α → Bool) : List α → Nat → Nat → Nat
  | [], _, best => best
  | x :: xs, i, best => lastIdxFrom p xs (i + 1) (if p x then i else best)

/-- The last index whose entry meets `p`, 0 when none does. -/
def lastIdx {α : Type} (p : α → Bool) (xs : List α) : Nat := lastIdxFrom p xs 0 0

/-- The value between two nodes, rounded down toward minus infinity (R28, R31). -/
def interpDown (x0 x1 y0 y1 x : Int) : Int := y0 + (y1 - y0) * (x - x0) / (x1 - x0)

/-- The value between two nodes, rounded up (R35). -/
def interpUp (x0 x1 y0 y1 x : Int) : Int := y0 - (-((y1 - y0) * (x - x0))) / (x1 - x0)

/-- A table read along straight lines (R31, R32, R37, R38): the argument is clamped to the breakpoints, the last
breakpoint gives the last value, and any other argument lies in the segment of the last breakpoint at or below it. -/
def tableAt (xs ys : List Int) (x : Int) : Int :=
  let top := xs.getLastD 0
  let x := max (xs.headD 0) (min x top)
  if x = top then ys.getD (xs.length - 1) 0
  else
    let k := lastIdx (fun b => decide (b ≤ x)) xs
    interpDown (xs.getD k 0) (xs.getD (k + 1) 0) (ys.getD k 0) (ys.getD (k + 1) 0) x

/-- The breakpoints as integers. -/
def ints (xs : List Nat) : List Int := xs.map Int.ofNat

/-- The column values c_0..c_n of a surface at a head (R31). -/
def columnAt (sf : SurfaceEntry) (head : Nat) : List Int :=
  (List.range sf.openingList.length).map fun i =>
    tableAt (ints sf.headList) ((List.range sf.headList.length).map fun j => Int.ofNat (sf.node i j)) head

/-- Forward discharge along a column (R32). -/
def columnDischarge (openings column : List Int) (opening : Nat) : Nat :=
  (tableAt openings column (min opening Config.fullOpening)).toNat

/-- The upper inverse along a column (R34). -/
def columnUpper (openings column : List Int) (q : Int) : Nat :=
  if q < column.headD 0 then 0
  else if column.getLastD 0 ≤ q then Config.fullOpening
  else
    let i := lastIdx (fun c => decide (c ≤ q)) column
    (interpDown (column.getD i 0) (column.getD (i + 1) 0) (openings.getD i 0) (openings.getD (i + 1) 0) q).toNat

/-- The lower inverse along a column with its unreachable mark (R35). The first index i with c_i < Q ≤ c_(i+1) is the
last index whose value lies below Q, the column being nondecreasing (R31). -/
def columnLower (openings column : List Int) (q : Int) : Nat × Bool :=
  if q ≤ column.headD 0 then (0, false)
  else if column.getLastD 0 < q then (Config.fullOpening, true)
  else
    let i := lastIdx (fun c => decide (c < q)) column
    ((interpUp (column.getD i 0) (column.getD (i + 1) 0) (openings.getD i 0) (openings.getD (i + 1) 0) q).toNat, false)

/-- Forward discharge q(o, h) of a surface (R32). -/
def discharge (sf : SurfaceEntry) (head opening : Nat) : Nat :=
  columnDischarge (ints sf.openingList) (columnAt sf head) opening

/-- The upper inverse U(Q) of a surface at a head (R34). -/
def upperInverse (sf : SurfaceEntry) (head : Nat) (q : Int) : Nat :=
  columnUpper (ints sf.openingList) (columnAt sf head) q

/-- The lower inverse L(Q) of a surface at a head, with the unreachable mark (R35). -/
def lowerInverse (sf : SurfaceEntry) (head : Nat) (q : Int) : Nat × Bool :=
  columnLower (ints sf.openingList) (columnAt sf head) q

/-- storage(L) of a station's level-storage table (R37). -/
def storageOf (e : StationEntry) (level : Nat) : Nat :=
  (tableAt (ints (e.pointList.map Point.level)) (ints (e.pointList.map Point.storage)) level).toNat

/-- level(S) of a station's level-storage table (R38). -/
def levelOf (e : StationEntry) (storage : Nat) : Nat :=
  (tableAt (ints (e.pointList.map Point.storage)) (ints (e.pointList.map Point.level)) storage).toNat

/-- The headwater level used for the head (R29), none when no level is held. -/
def headwaterFor (e : StationEntry) (st : Station) : Option Nat :=
  match st.hw.level with
  | none => none
  | some l => if st.hw.stale && st.storageValid then some (levelOf e st.storage) else some l

/-- The head of a station (R29, R30): headwater less tailwater, not below 0; 0 without a headwater level. Without a tailwater
level the tailwater counts 0: R30 says so when none was taken since the last reset, and the model keeps to it when a commit
cleared the tailwater record (R61, log 31). -/
def headFor (e : StationEntry) (st : Station) : Nat :=
  match headwaterFor e st with
  | none => 0
  | some l => l - st.tw.level.getD 0

end Sys2Proof.Machine
end

