-- ==== Sys2Proof/Machine/Ops.lean ====
section
/-! DEFINITION. The shared operations on the state: reading and replacing records, counts, queues, notices, and the sums of
discharge. -/

namespace Sys2Proof.Machine

/-- The ACTIVE plan (R151). -/
def State.active (s : State) : Plan := s.store.active

def State.chan (s : State) (g : Gate) : Channel := s.chans.get g
def State.setChan (s : State) (g : Gate) (c : Channel) : State := { s with chans := s.chans.set g c }
def State.station (s : State) (k : StationId) : Station := s.stations.get k
def State.setStation (s : State) (k : StationId) (r : Station) : State := { s with stations := s.stations.set k r }
def State.silenceOf (s : State) (k : StationId) : SilenceRec := s.silence.get k
def State.setSilence (s : State) (k : StationId) (r : SilenceRec) : State := { s with silence := s.silence.set k r }
def State.reach (s : State) (k : ReachId) : Reach := s.reaches.get k
def State.setReach (s : State) (k : ReachId) (r : Reach) : State := { s with reaches := s.reaches.set k r }
def State.gang (s : State) (k : GangId) : Gang := s.gangs.get k
def State.setGang (s : State) (k : GangId) (r : Gang) : State := { s with gangs := s.gangs.set k r }
def State.setPortF (s : State) (p : PortF) : State := { s with portF := p }
def State.setPortD (s : State) (p : PortD) : State := { s with portD := p }
def State.setReport (s : State) (r : Report) : State := { s with report := r }
def State.setStore (s : State) (r : PlanStore) : State := { s with store := r }
def State.setSampler (s : State) (m : Sampler) : State := s.setReport { s.report with sampler := m }

/-- The gate entry of a channel in the ACTIVE plan. -/
def State.gateEntry (s : State) (g : Gate) : GateEntry := s.active.gates.get g
/-- The station entry in the ACTIVE plan. -/
def State.stationEntry (s : State) (k : StationId) : StationEntry := s.active.stations.get k
/-- The gang entry in the ACTIVE plan. -/
def State.gangEntry (s : State) (k : GangId) : GangEntry := s.active.gangs.get k
/-- The reach entry in the ACTIVE plan. -/
def State.reachEntry (s : State) (k : ReachId) : ReachEntry := s.active.reaches.get k
/-- The members of a gang of the ACTIVE plan, in list order. -/
def State.members (s : State) (k : GangId) : List Gate := s.active.membersOf k

/-- The plant time now (R129). -/
def State.now (s : State) : PlantTime := s.clock.plantTime

/-- Whether UP_OWN has a place that is neither holding a frame nor reserved (R147). -/
def State.ownRoom (s : State) : Bool := decide (s.portD.own.length + s.portD.reserved < Config.ownCap)

/-- A notice is handed to the Report Unit (R165): it enters UP_OWN with the gap flag and clears the gap mark, or, with no
place free, is discarded and sets the mark. -/
def State.notify (s : State) (kind : NoticeKind) (subject : Subject) (detail value : Nat) : State :=
  if s.ownRoom then
    (s.setPortD { s.portD with
        own := s.portD.own ++ [.notice { kind := kind, subject := subject, time := s.now, detail := detail, value := value,
                                         gap := s.report.gapMark }] }).setReport { s.report with gapMark := false }
  else s.setReport { s.report with gapMark := true }

def PortCounts.addReceived (c : PortCounts) : PortCounts := { c with received := countUp c.received }
def PortCounts.addDamaged (c : PortCounts) : PortCounts := { c with damaged := countUp c.damaged }
def PortCounts.addDropped (c : PortCounts) : PortCounts := { c with dropped := countUp c.dropped }

/-- The counts of port D change (R143). -/
def State.countD (s : State) (f : PortCounts → PortCounts) : State :=
  s.setPortD { s.portD with counts := f s.portD.counts }

/-- The counts of port F change (R143). -/
def State.countF (s : State) (f : PortCounts → PortCounts) : State :=
  s.setPortF { s.portF with counts := f s.portF.counts }

/-- A frame from dispatch is placed unchanged in ROUTINE, or dropped and counted on port F when ROUTINE is full (R141,
R102). -/
def State.passToField (s : State) (f : LineFrame) : State :=
  if s.portF.routine.length < Config.routineCap then
    s.setPortF { s.portF with routine := s.portF.routine ++ [f] }
  else s.countF PortCounts.addDropped

/-- A field frame is placed unchanged in UP_FWD, or dropped and counted on port D when UP_FWD is full (R142). -/
def State.forwardUp (s : State) (f : LineFrame) : State :=
  if s.portD.fwd.length < Config.fwdCap then
    s.setPortD { s.portD with fwd := s.portD.fwd ++ [f] }
  else s.countD PortCounts.addDropped

/-- The two queues of port F, as a channel chooses between them (R13). -/
inductive FieldQueue where
  | urgent | routine
  deriving DecidableEq, Repr

/-- The queue's channels that wait. -/
def PortF.waiting (p : PortF) : FieldQueue → WaitList
  | .urgent => p.waitUrgent
  | .routine => p.waitRoutine

/-- The queue has room (R144). -/
def PortF.room (p : PortF) : FieldQueue → Bool
  | .urgent => decide (p.urgent.length < Config.urgentCap)
  | .routine => decide (p.routine.length < Config.routineCap)

/-- A frame enters a queue at its end (R144). -/
def PortF.push (p : PortF) (q : FieldQueue) (f : LineFrame) : PortF :=
  match q with
  | .urgent => { p with urgent := p.urgent ++ [f] }
  | .routine => { p with routine := p.routine ++ [f] }

/-- A gate put among gates in ascending order. -/
def insertAscending (g : Gate) : List Gate → List Gate
  | [] => [g]
  | h :: t => if g.1 < h.1 then g :: h :: t else h :: insertAscending g t

/-- A channel begins to wait, unless it waits already (R11, R144). -/
def WaitList.join (w : WaitList) (g : Gate) : WaitList :=
  if w.settled.contains g || w.fresh.contains g then w else { w with fresh := insertAscending g w.fresh }

/-- A channel no longer waits. -/
def WaitList.leave (w : WaitList) (g : Gate) : WaitList :=
  { settled := w.settled.filter fun h => h != g, fresh := w.fresh.filter fun h => h != g }

/-- The event is over: its waiters stand behind the earlier ones (R144). -/
def WaitList.settle (w : WaitList) : WaitList := { settled := w.settled ++ w.fresh, fresh := [] }

/-- A channel waits for neither queue. -/
def State.leaveWaits (s : State) (g : Gate) : State :=
  s.setPortF { s.portF with waitUrgent := s.portF.waitUrgent.leave g, waitRoutine := s.portF.waitRoutine.leave g }

/-- A channel waits for one queue and not for the other. -/
def State.joinWait (s : State) (g : Gate) (q : FieldQueue) : State :=
  match q with
  | .urgent =>
    s.setPortF { s.portF with waitUrgent := s.portF.waitUrgent.join g, waitRoutine := s.portF.waitRoutine.leave g }
  | .routine =>
    s.setPortF { s.portF with waitRoutine := s.portF.waitRoutine.join g, waitUrgent := s.portF.waitUrgent.leave g }

/-- The channel stands in STEP. -/
def ChanState.isStep : ChanState → Bool
  | .step _ _ => true
  | _ => false

/-- The channel stands in DWELL. -/
def ChanState.isDwell : ChanState → Bool
  | .dwell _ => true
  | _ => false

/-- A channel enters a state. What it held only in the state it leaves goes with it (R10: step target and timeout; R16:
dwell timer; hold and fault causes), the silence hold pending mark is clear outside STEP, and a channel that leaves IDLE
no longer waits for room. -/
def State.enter (s : State) (g : Gate) (st : ChanState) : State :=
  let c := s.chan g
  let s := s.setChan g { c with state := st, silencePending := c.silencePending && st.isStep }
  if st = .idle then s else s.leaveWaits g

/-- The head of a station as it stands (R29, R30). -/
def State.headOf (s : State) (k : StationId) : Nat := headFor (s.stationEntry k) (s.station k)

/-- The discharge of a gate's own surface at a head and an opening (R32); 0 when its entry names no surface number, which
the ACTIVE plan never does (R26). -/
def State.rate (s : State) (g : Gate) (head opening : Nat) : Nat :=
  match toFin? 12 (s.gateEntry g).surface with
  | some f => discharge (s.active.surfaces.get f) head opening
  | none => 0

/-- The opening a gate counts with in a planned outflow (R48): its governed target, else its measured opening, else 0. -/
def Channel.plannedOpening (c : Channel) : Nat := (c.governed.orElse fun _ => c.measured).getD 0

/-- The outflow of a station (R46): the discharge of its bound gates at their measured openings. -/
def State.outflowOf (s : State) (k : StationId) : Nat :=
  ((s.active.gatesOf k).map fun g =>
    match (s.chan g).measured with
    | some o => s.rate g (s.headOf k) o
    | none => 0).sum

/-- Every bound gate of the station has a measured opening, stale ones included (R65). -/
def State.allPositioned (s : State) (k : StationId) : Bool :=
  (s.active.gatesOf k).all fun g => (s.chan g).measured.isSome

/-- The planned outflow of a station's bound gates other than those left out (R48). -/
def State.plannedExcept (s : State) (k : StationId) (leftOut : Gate → Bool) : Nat :=
  (((s.active.gatesOf k).filter fun g => !leftOut g).map fun g =>
    s.rate g (s.headOf k) (s.chan g).plannedOpening).sum

/-- The planned outflow P of a station (R48). -/
def State.planned (s : State) (k : StationId) : Nat := s.plannedExcept k fun _ => false

/-- The trace being followed ends: the tag is removed and the record is valid, with the state the channel stands in
(R169). -/
def State.endTrace (s : State) (cause : EndCause) : State :=
  match s.report.sampler.tagged with
  | none => s
  | some t =>
    s.setSampler { s.report.sampler with
      tagged := none,
      record := some { trace := t, ended := s.now, cause := cause, endState := (s.chan t.gate).state.code } }

/-- The command being followed belongs to this channel. -/
def State.traces (s : State) (g : Gate) : Bool :=
  match s.report.sampler.tagged with
  | some t => t.gate == g
  | none => false

/-- Folds an operation over a list, first element first. -/
def forEach {α : Type} (xs : List α) (f : α → State → State) (s : State) : State :=
  xs.foldl (fun s x => f x s) s

/-- What the Management Responder answers a request with: the state it leaves, the status and the results (R154). -/
structure Answer where
  state : State
  status : Status
  results : List Byte
  deriving DecidableEq, Repr

/-- A request that is not carried out: the state is untouched (R154). -/
def State.deny (s : State) (status : Status) : Answer := { state := s, status := status, results := [] }
/-- A request that is carried out (R154 step 4). -/
def State.grant (s : State) (results : List Byte) : Answer := { state := s, status := .done, results := results }

/-- A plant time in 4 bytes: the day of year above the second of day of 17 bits (section 12.2). -/
def PlantTime.bytes (t : PlantTime) : List Byte := beBytes 4 (t.day * 131072 + t.second)

/-- Free bytes, as many as asked, from a place on (log 14). -/
def State.freeBytes (s : State) (place n : Nat) : List Byte :=
  (List.range n).map fun j => Config.freeByte s.freeCount (place + j)

/-- The free bytes of the counter's value are used up (log 14). -/
def State.useFree (s : State) : State := { s with freeCount := s.freeCount + 1 }

end Sys2Proof.Machine
end

