-- ==== Sys2Proof/Machine/Increments.lean ====
section
/-! DEFINITION. Increments (section 1.4) and the turn that lets a gang member start one (sections 5.3 to 5.5): caps, step
targets, judging, the scan, and a gang's hold and release. -/

namespace Sys2Proof.Machine

/-- The station of the gate stands in SURCHARGE. -/
def State.inSurcharge (s : State) (g : Gate) : Bool :=
  match (s.gateEntry g).station? with
  | some k => (s.station k).stage == .surcharge
  | none => false

/-- The silence level of the gate's station (R125). -/
def State.silenceLevelOf (s : State) (g : Gate) : SilenceLevel :=
  match (s.gateEntry g).station? with
  | some k => (s.silenceOf k).level
  | none => .l0

/-- The measured openings of a gang's other members whose out marks are clear (R81). -/
def State.otherOpenings (s : State) (c : GangId) (g : Gate) : List Nat :=
  ((s.members c).filter fun m => m != g && !(s.gang c).out.contains m).filterMap fun m => (s.chan m).measured

/-- The raise cap and the lower floor of a member (R81): absent outside a gang, in SURCHARGE, and when every other member
is out. -/
def State.caps (s : State) (g : Gate) : Option Nat × Option Int :=
  match s.active.gangOf g with
  | none => (none, none)
  | some c =>
    if s.inSurcharge g then (none, none)
    else
      let spread := (s.gangEntry c).spread
      ((s.otherOpenings c g).min?.map fun o => o + spread,
       (s.otherOpenings c g).max?.map fun o => (o : Int) - (spread : Int))

/-- The channel has work: its governed target lies farther from its measured opening than its deadband (R11). -/
def State.hasWork (s : State) (g : Gate) : Bool :=
  match (s.chan g).governed, (s.chan g).measured with
  | some t, some p => decide ((s.gateEntry g).deadband < max t p - min t p)
  | _, _ => false

/-- The step target from opening `p` toward target `t` (R12), none when the capped target would not move the gate at
least 1 su toward `t`. -/
def stepToward (e : GateEntry) (caps : Option Nat × Option Int) (p t : Nat) : Option Nat :=
  if p < t then
    let u := min t (p + e.stepUp)
    let u := match caps.1 with
      | some cap => min u cap
      | none => u
    if p < u then some u else none
  else
    let d := max t (p - e.stepDown)
    let d := match caps.2 with
      | some floor => max d floor.toNat
      | none => d
    if d < p then some d else none

/-- The capped step of a channel as it stands, work or not (R12, R81): none when it moves the gate less than 1 su. -/
def State.cappedStep (s : State) (g : Gate) : Option Nat :=
  match (s.chan g).governed, (s.chan g).measured with
  | some t, some p => stepToward (s.gateEntry g) (s.caps g) p t
  | _, _ => none

/-- The step target the channel would take now: it is in IDLE, has work, and its capped step moves it (R11, R12, R80). -/
def State.workTarget (s : State) (g : Gate) : Option Nat :=
  if (s.chan g).state = .idle && s.hasWork g then s.cappedStep g else none

/-- The channel is outside a gang or holds its gang's turn (R11). -/
def State.mayStart (s : State) (g : Gate) : Bool :=
  match s.active.gangOf g with
  | none => true
  | some c => (s.gang c).holder == some g

/-- The queue an increment of the channel must use (R13). -/
def State.queueFor (s : State) (g : Gate) : FieldQueue :=
  if s.inSurcharge g || (s.chan g).source == .compensation || (s.chan g).source == .fallback then .urgent else .routine

/-- The set-point frame of an increment (R13, section 12.1): issuer 255, flags 0, the increment tag as the tag,
destination 255. -/
def incrementFrame (g : Gate) (target tag : Nat) : LineFrame :=
  { dest := broadcast, typ := typSetpoint
    payload := [0xFF#8, byteOf g.1] ++ beBytes 2 target ++ [0#8] ++ beBytes 2 tag }

/-- The traced channel places its first increment's frame after the tagging (R169). -/
def State.noteEnqueued (s : State) (g : Gate) : State :=
  match s.report.sampler.tagged with
  | some t =>
    if t.gate = g && t.enqueued.isNone then
      s.setSampler { s.report.sampler with tagged := some { t with enqueued := some s.now } }
    else s
  | none => s

/-- An increment starts toward `target` (R13): its frame enters the queue, the tag counts on, the start opening, step
target and timeout are set, the direction is kept for the dwell (R12), and the channel enters STEP. -/
def State.startIncrement (s : State) (g : Gate) (target : Nat) (q : FieldQueue) : State :=
  let c := s.chan g
  let tag := (c.tag + 1) % 65536
  let dir : Dir := if c.measured.getD 0 < target then .up else .down
  let s := s.setChan g { c with tag := tag, start := c.measured, dwellDir := some dir }
  let s := s.enter g (.step target (s.gateEntry g).stepTimeout)
  let s := s.setPortF (s.portF.push q (incrementFrame g target tag))
  s.noteEnqueued g

/-- The channel judges whether to start an increment (R11): it starts when it has work that moves it, the turn and room in
its queue, waits for the queue when only room is missing, and otherwise waits for none: a channel that was waiting and judges with
no work, no step or no turn gives up its place, a turn holder too, which keeps the turn (R82), and one that must now use the other
queue takes a new place there (log 33). -/
def State.judge (s : State) (g : Gate) : State :=
  match s.workTarget g with
  | some target =>
    if s.mayStart g then
      if s.portF.room (s.queueFor g) then s.startIncrement g target (s.queueFor g)
      else s.joinWait g (s.queueFor g)
    else s.leaveWaits g
  | none => s.leaveWaits g

/-- A channel state that holds the gang (R86): FAULT, WAIT, or HOLD with cause STALL. -/
def ChanState.blocks : ChanState → Bool
  | .fault _ => true
  | .wait => true
  | .hold .stall => true
  | _ => false

/-- The member is out of its gang (R90). -/
def Gang.isOut (r : Gang) (g : Gate) : Bool := r.out.contains g

/-- The members that hold the gang, in list order (R86). -/
def State.blockers (s : State) (c : GangId) : List Gate :=
  (s.members c).filter fun m => !(s.gang c).isOut m && (s.chan m).state.blocks

/-- The members a gang hold moves: not out, in IDLE or DWELL (R86). -/
def State.holdable (s : State) (c : GangId) : List Gate :=
  (s.members c).filter fun m => !(s.gang c).isOut m && ((s.chan m).state == .idle || (s.chan m).state.isDwell)

/-- The gang becomes held (R86): the hold flag is set, a holder in IDLE loses the turn while one in STEP keeps it, a
running gang dwell is cancelled (an out dwelling member enters IDLE), the members in IDLE or DWELL enter HOLD with cause
GANG, and a GANG_HOLD notice follows unless `quiet` (R92). -/
def State.becomeHeld (s : State) (c : GangId) (blocker : Gate) (quiet : Bool) : State :=
  let r := s.gang c
  let movers := s.holdable c
  let released := match r.dwell with
    | some d => if r.isOut d.member && (s.chan d.member).state.isDwell then [d.member] else []
    | none => []
  let holder := r.holder.filter fun h => (s.chan h).state.isStep
  let s := s.setGang c { r with hold := true, holder := holder, dwell := none }
  let s := forEach movers (fun m s => s.enter m (.hold .gang)) s
  let s := forEach released (fun m s => s.enter m .idle) s
  if quiet then s
  else s.notify .gangHold (.gang c.1) (packDetail blocker.1 (s.chan blocker).state.code) movers.length

/-- Where a member of a released gang goes: IDLE at silence level 0, HOLD with cause SILENCE otherwise (R88). -/
def State.afterGangHold (s : State) (g : Gate) : ChanState :=
  if s.silenceLevelOf g = .l0 then .idle else .hold .silence

/-- The members in HOLD with cause GANG leave it (R88, R92). -/
def State.freeMembers (s : State) (ms : List Gate) : State :=
  forEach ms (fun m s => if (s.chan m).state = .hold .gang then s.enter m (s.afterGangHold m) else s) s

/-- The held gang is released (R88): the flag is cleared, its members leave HOLD with cause GANG, and GANG_RELEASE names
the member whose change released it with the members moved to IDLE and to HOLD with cause SILENCE. -/
def State.releaseGang (s : State) (c : GangId) (cause : Gate) : State :=
  let held := (s.members c).filter fun m => (s.chan m).state == .hold .gang
  let toIdle := (held.filter fun m => s.silenceLevelOf m == .l0).length
  let s := s.setGang c { s.gang c with hold := false }
  let s := s.freeMembers held
  s.notify .gangRelease (.gang c.1) (packDetail 0 cause.1) (packValue toIdle (held.length - toIdle))

/-- The gang's hold is judged (R86 to R88) after a change of a member. -/
def State.judgeHold (s : State) (c : GangId) (cause : Gate) : State :=
  match (s.gang c).hold, s.blockers c with
  | false, b :: _ => s.becomeHeld c b false
  | false, [] => s
  | true, [] => s.releaseGang c cause
  | true, _ :: _ => forEach (s.holdable c) (fun m s => s.enter m (.hold .gang)) s

/-- The gang dwell is cancelled when its member is no longer in DWELL (R84). -/
def State.checkDwell (s : State) (c : GangId) : State :=
  match (s.gang c).dwell with
  | some d => if (s.chan d.member).state.isDwell then s else s.setGang c { s.gang c with dwell := none }
  | none => s

/-- What caused an event of a gang, as far as the turn asks (R82). -/
inductive GangCause where
  /-- A member's request, which may leave the holder without work or step. -/
  | request
  /-- A member's measured opening changed. -/
  | opening
  /-- The station entered or left SURCHARGE. -/
  | surcharge
  /-- Any other event of R78. -/
  | other
  deriving DecidableEq, Repr

/-- The member's place lets it hold the turn: in STEP, or in IDLE, not out, in a gang that is not held (R82, R85). -/
def State.mayHold (s : State) (c : GangId) (h : Gate) : Bool :=
  (s.chan h).state.isStep || ((s.chan h).state == .idle && !(s.gang c).isOut h && !(s.gang c).hold)

/-- The event takes the turn from a holder in IDLE (R82): its own request leaves it no work or no step; another member's
new opening, or the station's leaving SURCHARGE, leaves its capped step below 1 su. A capped step that was below 1 su
before such an event counts as brought there, and a request takes the turn also when it repeats the governed target or finds the
capped step below 1 su already (log 29). -/
def State.losesTurn (s : State) (h : Gate) (kind : GangCause) (cause : Option Gate) : Bool :=
  (s.chan h).state == .idle &&
    match kind with
    | .request => cause == some h && (s.workTarget h).isNone
    | .opening => cause != some h && (s.cappedStep h).isNone
    | .surcharge => !s.inSurcharge h && (s.cappedStep h).isNone
    | .other => false

/-- The turn is released when its holder's place or the event takes it; the last mover is unchanged (R82, R85). No other
event does: a holder whose own POSITION frame leaves it no work, whose companion's out mark is cleared, or whose spread or
deadband a commit changes, keeps the turn (R79, R92). -/
def State.checkTurn (s : State) (c : GangId) (kind : GangCause) (cause : Option Gate) : State :=
  match (s.gang c).holder with
  | some h =>
    if s.mayHold c h && !s.losesTurn h kind cause then s
    else (s.setGang c { s.gang c with holder := none }).leaveWaits h
  | none => s

/-- The members in the order a scan examines them: from the one after the last mover round to the last mover (R80). -/
def scanOrder (members : List Gate) (last : Option Gate) : List Gate :=
  match last with
  | none => members
  | some l =>
    if members.contains l then
      ((members.dropWhile fun m => m != l).drop 1) ++ (members.takeWhile fun m => m != l) ++ [l]
    else members

/-- The member a scan grants the turn to (R80). -/
def State.scanPick (s : State) (c : GangId) : Option Gate :=
  if (s.gang c).holder.isNone && (s.gang c).dwell.isNone && !(s.gang c).hold then
    (scanOrder (s.members c) (s.gang c).lastMover).find? fun m => !(s.gang c).isOut m && (s.workTarget m).isSome
  else none

/-- A scan (R80): the member picked holds the turn and judges at once; a holder whose own change caused the event judges
again (R11). -/
def State.scan (s : State) (c : GangId) (cause : Option Gate) : State :=
  match s.scanPick c with
  | some m => (s.setGang c { s.gang c with holder := some m }).judge m
  | none =>
    match cause with
    | some g => if (s.gang c).holder = some g then s.judge g else s
    | none => s

/-- An event of a gang (R78), taken after the change of member `cause` that causes it. -/
def State.gangEvent (s : State) (c : GangId) (kind : GangCause) (cause : Gate) : State :=
  if (s.gangEntry c).isPresent then
    (((s.judgeHold c cause).checkDwell c).checkTurn c kind (some cause)).scan c (some cause)
  else s

/-- An event of a gang caused by its station or by a commit (R78, R92), by no one member. -/
def State.gangReview (s : State) (kind : GangCause) (c : GangId) : State :=
  match s.members c with
  | m :: _ => (((s.judgeHold c m).checkDwell c).checkTurn c kind none).scan c none
  | [] => s

/-- What follows a change of a channel: outside a gang it judges (R11), in a gang the gang takes its event (R78). -/
def State.chanEvent (s : State) (kind : GangCause) (g : Gate) : State :=
  match s.active.gangOf g with
  | none => s.judge g
  | some c => s.gangEvent c kind g

/-- The events of several gangs that follow an event of a station or of the Plan Store (R78, R120; log 8). -/
def State.gangReviews (s : State) (kind : GangCause) (cs : List GangId) : State :=
  forEach cs (fun c s => s.gangReview kind c) s

/-- The end of an event: the channels that began to wait in it stand behind those that waited before (R144), and the
trace of the command being followed ends when its channel stands in a state that ends it (R169; log 10). -/
def State.finish (s : State) : State :=
  let s := s.setPortF { s.portF with waitUrgent := s.portF.waitUrgent.settle, waitRoutine := s.portF.waitRoutine.settle }
  match s.report.sampler.tagged with
  | none => s
  | some t =>
    match (s.chan t.gate).state with
    | .unbound => s.endTrace .unbound
    | .wait => s.endTrace .faulted
    | .localHand => s.endTrace .faulted
    | .fault _ => s.endTrace .faulted
    | .hold _ => s.endTrace .held
    | .idle => if s.hasWork t.gate then s else s.endTrace .reached
    | .step _ _ => s
    | .dwell _ => s

/-- The outcome of every command: a next state, its event ended. -/
def done (s : State) : Host.Outcome State Fault Refusal := .next s.finish

end Sys2Proof.Machine
end

