-- ==== Sys2Proof/Machine/Gangs.lean ====
section
/-! DEFINITION. Requests to a channel (section 1.5), the compensation fill (section 5.8), the gang dwell's expiry and the
out marks (section 5.6). -/

namespace Sys2Proof.Machine

/-- The channel takes a request in this state (R17). -/
def ChanState.takes : ChanState → Bool
  | .idle => true
  | .step _ _ => true
  | .dwell _ => true
  | .hold _ => true
  | .unbound => false
  | .wait => false
  | .localHand => false
  | .fault _ => false

/-- A channel takes a request (R17 to R20): its governed target, source and clamp mark become the request's, a silence
hold pending mark is cleared, a silence hold ends in IDLE, a trace it carried is superseded (R169), and the channel
judges or its gang scans. A channel in UNBOUND, WAIT, LOCAL or FAULT discards it. -/
def State.takeRequest (s : State) (g : Gate) (opening : Nat) (source : Source) (mark : ClampMark) : State :=
  let c := s.chan g
  if c.state.takes then
    let s := s.setChan g { c with governed := some opening, source := source, clamp := mark, silencePending := false }
    let s := if c.state = .hold .silence then s.enter g .idle else s
    let s := if s.traces g then s.endTrace .superseded else s
    s.chanEvent .request g
  else s

/-- A member the compensation fill considers: not out, in IDLE, DWELL, STEP or HOLD with cause SILENCE (R94). -/
def State.fillable (s : State) (c : GangId) (g : Gate) : Bool :=
  !(s.gang c).isOut g &&
    match (s.chan g).state with
    | .idle => true
    | .dwell _ => true
    | .step _ _ => true
    | .hold .silence => true
    | _ => false

/-- The walk of the fill over the members in list order (R94), with the remaining deficit and the members raised. -/
def State.fillFrom (s : State) (c : GangId) (head : Nat) : List Gate → Nat → Nat → State × Nat × Nat
  | [], left, raised => (s, left, raised)
  | m :: ms, left, raised =>
    let present := s.rate m head (s.chan m).plannedOpening
    let t := min (s.rate m head Config.fullOpening - present) left
    if s.fillable c m && decide (0 < t) then
      let opening := match toFin? 12 (s.gateEntry m).surface with
        | some f => (lowerInverse (s.active.surfaces.get f) head ((present + t : Nat) : Int)).1
        | none => 0
      (s.takeRequest m opening .compensation .none).fillFrom c head ms (left - t) (raised + 1)
    else s.fillFrom c head ms left raised

/-- The Gang Sequencer takes a deficit of a station for its compensation gang (R93 to R96). -/
def State.takeDeficit (s : State) (k : StationId) (c : GangId) (deficit : Nat) : State :=
  let room := min deficit ((s.station k).qmax - s.planned k)
  let (s, left, raised) := s.fillFrom c (s.headOf k) (s.members c) room 0
  s.notify .compensation (.station k.1) (packDetail c.1 raised) (packValue deficit (room - left))

/-- A station takes the trip of one of its wicket gates, with the opening the channel held before the trip frame
(R60). -/
def State.takeTrip (s : State) (g : Gate) (former : Option Nat) : State :=
  match (s.gateEntry g).station? with
  | none => s
  | some k =>
    match (s.stationEntry k).compGang?, former with
    | some c, some o =>
      let deficit := s.rate g (s.headOf k) o
      if 0 < deficit then s.takeDeficit k c deficit else s
    | _, _ => s

/-- A gang dwell expires (R84): the dwelling member enters IDLE, the dwelling member becomes absent, and a scan
follows. -/
def State.gangDwellExpires (s : State) (c : GangId) : State :=
  match (s.gang c).dwell with
  | some d =>
    if d.remaining = 0 then
      let s := s.setGang c { s.gang c with dwell := none }
      let s := if (s.chan d.member).state.isDwell then s.enter d.member .idle else s
      s.gangEvent c .other d.member
    else s
  | none => s

/-- The out marks with one member's mark set or cleared, kept in list order (R90). -/
def outWith (members out : List Gate) (g : Gate) (value : Bool) : List Gate :=
  members.filter fun m => if m = g then value else out.contains m

/-- A member's out mark changes (R91): a set mark makes a holder in IDLE release the turn and frees the member from the
gang's hold; then the hold is judged anew and a scan follows. -/
def State.changeOut (s : State) (c : GangId) (g : Gate) (value : Bool) : State :=
  let s := s.setGang c { s.gang c with out := outWith (s.members c) (s.gang c).out g value }
  let s := if value then s.freeMembers [g] else s
  s.gangEvent c .other g

end Sys2Proof.Machine
end

