-- ==== Sys2Proof/Machine/Channels.lean ====
section
/-! DEFINITION. What a channel does on a POSITION frame, a confirmation, staleness, a step timeout and a dwell's end
(sections 1.3 to 1.6), and the commands of these events. -/

namespace Sys2Proof.Machine

/-- The dwell a confirmed increment calls for, by its direction (R14, R83). -/
def dwellLength (dir : Option Dir) (up down : Nat) : Nat :=
  match dir with
  | some .down => down
  | _ => up

/-- A gang member's increment is confirmed with its gang not held and no pending mark (R14 case 3, R83): it becomes the
last mover, releases the turn and starts the gang dwell; a gang dwell of 0 gives it no pause. -/
def State.confirmMember (s : State) (c : GangId) (g : Gate) : State :=
  let e := s.gangEntry c
  let dir := (s.chan g).dwellDir
  let n := dwellLength dir e.dwellUp e.dwellDown
  let r := s.gang c
  if n = 0 then
    (s.setGang c { r with holder := none, lastMover := some g }).enter g .idle
  else
    (s.setGang c { r with holder := none, lastMover := some g,
                          dwell := some { dir := dir.getD .up, remaining := n, member := g } }).enter g (.dwell none)

/-- An increment is confirmed (R14): HOLD with cause GANG when the gang is held, else HOLD with cause SILENCE when the
pending mark is set, else the gang's dwell, the own dwell or IDLE. -/
def State.confirm (s : State) (g : Gate) : State :=
  let c := s.chan g
  match s.active.gangOf g with
  | some k =>
    if (s.gang k).hold then
      (s.setGang k { s.gang k with holder := (s.gang k).holder.filter fun h => h != g }).enter g (.hold .gang)
    else if c.silencePending then
      (s.setGang k { s.gang k with holder := (s.gang k).holder.filter fun h => h != g }).enter g (.hold .silence)
    else s.confirmMember k g
  | none =>
    if c.silencePending then s.enter g (.hold .silence)
    else
      let n := dwellLength c.dwellDir (s.gateEntry g).dwellUp (s.gateEntry g).dwellDown
      if n = 0 then s.enter g .idle else s.enter g (.dwell (some n))

/-- The position of a bound channel is updated (R4). -/
def Channel.withPosition (c : Channel) (opening : Nat) : Channel :=
  { c with measured := some opening, stale := false, staleDue := false, age := 0 }

/-- A POSITION frame with no flag, after the update (R8, R14). `before` is the channel as the frame found it. -/
def State.positionClear (s : State) (g : Gate) (before : Channel) (opening : Nat) : State :=
  let back := (s.setChan g { s.chan g with governed := some opening, source := .none, clamp := .none }).enter g .idle
  match before.state with
  | .unbound => s
  | .wait =>
    if before.measured.isSome && before.stale then
      back.notify .gateReturn (.gate g.1) (packDetail 0 before.state.code) opening
    else back
  | .localHand => back.notify .gateReturn (.gate g.1) (packDetail 0 before.state.code) opening
  | .fault _ => back.notify .gateReturn (.gate g.1) (packDetail 0 before.state.code) opening
  | .step target _ =>
    if max opening target - min opening target ≤ (s.gateEntry g).deadband then s.confirm g else s
  | .idle => s
  | .dwell _ => s
  | .hold _ => s

/-- A POSITION frame whose most severe flag is LOCAL, after the update (R5). -/
def State.positionLocal (s : State) (g : Gate) (before : Channel) (opening : Nat) : State :=
  if before.state = .localHand then s
  else (s.enter g .localHand).notify .gateLocal (.gate g.1) (packDetail 0 before.state.code) opening

/-- A POSITION frame whose most severe flag is FAULT, after the update (R6). -/
def State.positionFault (s : State) (g : Gate) (before : Channel) (opening : Nat) : State :=
  match before.state with
  | .fault _ => s
  | _ => (s.enter g (.fault .drive)).notify .gateFault (.gate g.1) (packDetail 0 before.state.code) opening

/-- A POSITION frame whose most severe flag is TRIP, after the update (R7). -/
def State.positionTrip (s : State) (g : Gate) (before : Channel) (opening : Nat) : State :=
  if (s.gateEntry g).isWicket then
    let s := s.setChan g { s.chan g with governed := some opening }
    if before.state = .fault .trip then s
    else
      let s := s.enter g (.fault .trip)
      let s := s.notify .gateTrip (.gate g.1) (packDetail 0 before.state.code) (before.measured.getD 65535)
      s.takeTrip g before.measured
  else s.positionFault g before opening

/-- A POSITION frame reaches its channel (R4): the position is updated, the flags act, and the channel judges or its gang
takes the event, also when the frame reports the opening already held (log 29). An unbound channel is not acted on. -/
def State.takePosition (s : State) (g : Gate) (opening : Nat) (flags : Byte) : State :=
  let before := s.chan g
  if before.state = .unbound then s
  else
    let opening := min opening Config.fullOpening
    let s := s.setChan g (before.withPosition opening)
    let s := match severest flags with
      | .clear => s.positionClear g before opening
      | .localHand => s.positionLocal g before opening
      | .fault => s.positionFault g before opening
      | .trip => s.positionTrip g before opening
    s.chanEvent (if before.measured = some opening then .other else .opening) g

/-- A position becomes stale (R9): the mark is set, the channel enters WAIT, and POSITION_STALE is sent. -/
def State.positionGoesStale (s : State) (g : Gate) : State :=
  let c := s.chan g
  if c.staleDue && c.state != .unbound then
    let s := s.setChan g { c with stale := true, staleDue := false }
    let s := if c.state = .wait then s else s.enter g .wait
    let s := s.notify .positionStale (.gate g.1) (packDetail 0 c.state.code) (c.measured.getD 0)
    s.chanEvent .other g
  else s

/-- A step timeout expires (R15): HOLD with cause STALL, and STEP_STALL with the tag, the step target as it stood and the
measured opening. -/
def State.stepTimesOut (s : State) (g : Gate) : State :=
  let c := s.chan g
  match c.state with
  | .step target 0 =>
    let s := s.enter g (.hold .stall)
    let s := s.notify .stepStall (.gate g.1) c.tag (packValue target (c.measured.getD 0))
    s.chanEvent .other g
  | _ => s

/-- A channel's own dwell timer expires (R16): it enters IDLE and judges. -/
def State.dwellExpires (s : State) (g : Gate) : State :=
  match (s.chan g).state with
  | .dwell (some 0) => (s.enter g .idle).chanEvent .other g
  | _ => s

end Sys2Proof.Machine
end

