-- ==== Sys2Proof/Machine/Stations.lean ====
section
/-! DEFINITION. The Station Balance Unit (chapter 3): gauge frames, staleness, the window, the level marks, the stages, the
outflow and balance events, and the station records at a commit. -/

namespace Sys2Proof

/-- A level mark's entry. -/
def StationEntry.markAt (e : StationEntry) (i : Fin 2) : MarkEntry := if i = 0 then e.mark0 else e.mark1
/-- The present station that names a gauge in a role (R42). -/
def Plan.stationOfGauge (p : Plan) (role : GaugeRole) (gauge : Nat) : Option StationId :=
  (allFin 6).find? fun k =>
    (p.stations.get k).isPresent &&
      (match role with
       | .headwater => (p.stations.get k).hwGauge
       | .tailwater => (p.stations.get k).twGauge) == gauge

/-- The gauge number of a role. -/
def StationEntry.gaugeNo (e : StationEntry) : GaugeRole → Nat
  | .headwater => e.hwGauge
  | .tailwater => e.twGauge

/-- The threshold of a stage (R51). -/
def StationEntry.threshold (e : StationEntry) : Stage → Nat
  | .normal => 0
  | .watch => e.sWatch
  | .preRelease => e.sPre
  | .surcharge => e.sSur

/-- The highest stage whose threshold is at or below the prediction (R51 step 1). -/
def StationEntry.stageFor (e : StationEntry) (sPred : Nat) : Stage :=
  if e.sSur ≤ sPred then .surcharge
  else if e.sPre ≤ sPred then .preRelease
  else if e.sWatch ≤ sPred then .watch
  else .normal

/-- The floor of a level mark while the mark is active (R56), NORMAL standing for none. -/
def MarkEntry.activeFloor (m : MarkEntry) (level : Option Nat) : Stage :=
  match level with
  | some l => if m.isPresent && m.countsRising && decide (m.level ≤ l) then m.floor.getD .normal else .normal
  | none => .normal

/-- The highest floor of the active marks of a station (R51, R56). -/
def StationEntry.activeFloor (e : StationEntry) (level : Option Nat) : Stage :=
  (e.mark0.activeFloor level).max (e.mark1.activeFloor level)

/-- The stage after the rising and the falling test (R51, R52). -/
def StationEntry.nextStage (e : StationEntry) (current : Stage) (sPred : Nat) (level : Option Nat) : Stage :=
  let candidate := (e.stageFor sPred).max (e.activeFloor level)
  if current.code < candidate.code then candidate
  else if current ≠ .normal ∧ sPred + e.hysteresis < e.threshold current
      ∧ (e.activeFloor level).code < current.code then current.pred
  else current

end Sys2Proof

namespace Sys2Proof.Machine

/-- A stage change has the gangs of the station take their event when it enters or leaves SURCHARGE (R78). -/
def State.surchargeReviews (s : State) (k : StationId) (before : Stage) : State :=
  if (before == .surcharge) != ((s.station k).stage == .surcharge) then s.gangReviews .surcharge (s.active.gangsOf k) else s

/-- The window of a stage under a plan entry (R53). -/
def windowFor (e : StationEntry) (stage : Stage) (arrival qLocal : Nat) : Nat × Nat :=
  match stage with
  | .normal => (e.qminEnv, e.qmaxChan)
  | .watch => (e.qminEnv, e.qmaxChan)
  | .preRelease => (max e.qminEnv e.qPreFloor, e.qmaxChan)
  | .surcharge => (max e.qminEnv (min (arrival + qLocal) e.qmaxDam), e.qmaxDam)

/-- The record with its window recomputed (R53). -/
def Station.withWindow (r : Station) (e : StationEntry) : Station :=
  { r with qmin := (windowFor e r.stage r.arrival r.qLocal).1, qmax := (windowFor e r.stage r.arrival r.qLocal).2 }

/-- A level mark's capture record. -/
def Station.markAt (r : Station) (i : Fin 2) : MarkRec := if i = 0 then r.mark0 else r.mark1
/-- A level mark's capture record replaced. -/
def Station.setMark (r : Station) (i : Fin 2) (m : MarkRec) : Station :=
  if i = 0 then { r with mark0 := m } else { r with mark1 := m }

/-- A level rises past a mark (R57). -/
def risesPast (mark prev new : Nat) : Bool := decide (prev < mark) && decide (mark ≤ new)
/-- A level falls past a mark (R57). -/
def fallsPast (mark prev new : Nat) : Bool := decide (mark ≤ prev) && decide (new < mark)

/-- The stage rises to a mark's floor (R58). -/
def State.raiseByMark (s : State) (k : StationId) (i : Fin 2) (floor : Stage) (level : Nat) : State :=
  let r := s.station k
  (s.setStation k ({ r with stage := floor }.withWindow (s.stationEntry k))).notify .stageChange (.station k.1)
    (packNibbles r.stage.code floor.code 1 i.1) level

/-- The direction code of MARK_CROSSED (section 12.3). -/
def crossingCode (rising : Bool) : Nat := if rising then 1 else 2

/-- A counted crossing is captured (R57): overwrite mark, capture, unread mark, notice, and the raise of R58. -/
def State.captureCrossing (s : State) (k : StationId) (i : Fin 2) (rising : Bool) (level : Nat) : State :=
  let r := s.station k
  let old := r.markAt i
  let overwrite := old.overwrite || (old.capture.isSome && old.unread)
  let s := s.setStation k (r.setMark i
    { capture := some { time := s.now, level := level, rising := rising }, unread := true, overwrite := overwrite })
  let s := s.notify .markCrossed (.station k.1)
    (packDetail i.1 (crossingCode rising * 16 + overwrite.toNat)) level
  match ((s.stationEntry k).markAt i).floor with
  | some floor =>
    if rising && decide ((s.station k).stage.code < floor.code) then s.raiseByMark k i floor level else s
  | none => s

/-- A present mark is judged against the previous and the new headwater level (R57). -/
def State.judgeMark (s : State) (k : StationId) (prev : Option Nat) (level : Nat) (i : Fin 2) : State :=
  let m := (s.stationEntry k).markAt i
  match prev with
  | none => s
  | some p =>
    if m.isPresent && m.countsRising && risesPast m.level p level then s.captureCrossing k i true level
    else if m.isPresent && m.countsFalling && fallsPast m.level p level then s.captureCrossing k i false level
    else s

/-- A fresh gauge record (R43, R44). -/
def GaugeRec.fresh (level : Nat) : GaugeRec := { level := some level, age := 0, stale := false, staleDue := false }

/-- A GOOD or SUSPECT frame for a headwater gauge (R43). -/
def State.takeHeadwater (s : State) (k : StationId) (gauge level : Nat) (q : Quality) : State :=
  let r := s.station k
  let s := s.setStation k { r with hw := GaugeRec.fresh level, hwQuality := some q }
  let s := if r.hw.stale then
    s.notify .gaugeFresh (.station k.1) (packDetail 0 (gauge * 16 + q.code)) level else s
  let s := s.setStation k { s.station k with storage := storageOf (s.stationEntry k) level, storageValid := true }
  let s := (s.judgeMark k r.hw.level level 0).judgeMark k r.hw.level level 1
  s.surchargeReviews k r.stage

/-- A GOOD or SUSPECT frame for a tailwater gauge (R44). -/
def State.takeTailwater (s : State) (k : StationId) (gauge level : Nat) (q : Quality) : State :=
  let r := s.station k
  let s := s.setStation k { r with tw := GaugeRec.fresh level }
  if r.tw.stale then s.notify .gaugeFresh (.station k.1) (packDetail 1 (gauge * 16 + q.code)) level else s

/-- A GAUGE frame reaches its station (R42): none for a BAD reading or a gauge that no present station names. -/
def State.takeGauge (s : State) (gauge level quality : Nat) : State :=
  match readQuality quality with
  | none => s
  | some q =>
    match s.active.stationOfGauge .headwater gauge with
    | some k => s.takeHeadwater k gauge level q
    | none =>
      match s.active.stationOfGauge .tailwater gauge with
      | some k => s.takeTailwater k gauge level q
      | none => s

/-- A station's gauge record by role. -/
def Station.gauge (r : Station) : GaugeRole → GaugeRec
  | .headwater => r.hw
  | .tailwater => r.tw
/-- A station's gauge record by role, replaced. -/
def Station.setGauge (r : Station) (role : GaugeRole) (g : GaugeRec) : Station :=
  match role with
  | .headwater => { r with hw := g }
  | .tailwater => { r with tw := g }
/-- A gauge record becomes stale (R45). -/
def State.gaugeGoesStale (s : State) (k : StationId) (role : GaugeRole) : State :=
  let g := (s.station k).gauge role
  if g.staleDue && (s.stationEntry k).isPresent then
    (s.setStation k ((s.station k).setGauge role { g with stale := true, staleDue := false })).notify .gaugeStale
      (.station k.1) (packDetail (roleCode role) ((s.stationEntry k).gaugeNo role)) (g.level.getD 0)
  else s

/-- The outflow event of a station (R46), with the indication of R65. -/
def State.outflowEvent (s : State) (k : StationId) : State :=
  if (s.stationEntry k).isPresent then
    s.setStation k { s.station k with qOut := s.outflowOf k, positioned := s.allPositioned k }
  else s

/-- Brought into 0..4,294,967,295 (R49, R50). -/
def toStorage (x : Int) : Nat := min x.toNat Config.storageMax

/-- The storage after a balance event (R49). -/
def Station.balanced (r : Station) (arrival : Nat) : Nat :=
  toStorage ((r.storage : Int) + 6 * ((arrival : Int) + r.qLocal - r.qOut))

/-- The predicted storage (R50). -/
def predicted (storage horizon qLocal qOut ahead : Nat) : Nat :=
  toStorage ((storage : Int) + 6 * ((ahead : Int) + (horizon : Int) * ((qLocal : Int) - (qOut : Int))))

/-- The balance event of a station (R47, R49 to R53) with the arrival and the look-ahead sum handed to it. -/
def State.balanceEvent (s : State) (k : StationId) (arrival ahead : Nat) : State :=
  let e := s.stationEntry k
  let r := s.station k
  if e.isPresent then
    if r.storageValid then
      let storage := r.balanced arrival
      let pred := predicted storage e.horizon r.qLocal r.qOut ahead
      let stage := e.nextStage r.stage pred r.hw.level
      let r' := { r with arrival := arrival, storage := storage, sPred := some pred, stage := stage }
      let r' := if stage ≠ r.stage ∨ stage = .surcharge then r'.withWindow e else r'
      let s := s.setStation k r'
      let s := if stage ≠ r.stage then
        s.notify .stageChange (.station k.1) (packNibbles r.stage.code stage.code 0 0) pred else s
      s.surchargeReviews k r.stage
    else
      let r' := { r with arrival := arrival }
      s.setStation k (if r.stage = .surcharge then r'.withWindow e else r')
  else s

/-- A station newly present or after a reset (R41): the window of NORMAL from its entry; an absent one holds no window
(log 16). -/
def Station.resetFor (e : StationEntry) : Station :=
  if e.isPresent then Station.resetWith e.qminEnv e.qmaxChan else Station.resetWith 0 0

/-- A level mark's capture at a commit (R61): removed when the mark's level, direction or floor changes or the mark
becomes absent. -/
def markAtCommit (old new : MarkEntry) (m : MarkRec) : MarkRec :=
  if old.isPresent = new.isPresent ∧ (new.isPresent → old.level = new.level ∧ old.direction = new.direction
      ∧ old.floor = new.floor) then m
  else MarkRec.reset

/-- A station record at a commit (R61), from its old and new entry. -/
def Station.atCommit (r : Station) (old new : StationEntry) : Station :=
  if old.isPresent && new.isPresent then
    let r := if old.hwGauge = new.hwGauge then r else { r with hw := GaugeRec.reset, hwQuality := none }
    let r := if old.twGauge = new.twGauge then r else { r with tw := GaugeRec.reset }
    let r := if old.pointList = new.pointList then r else { r with storageValid := false }
    let r := { r with mark0 := markAtCommit old.mark0 new.mark0 r.mark0,
                      mark1 := markAtCommit old.mark1 new.mark1 r.mark1 }
    r.withWindow new
  else if old.isPresent || new.isPresent then Station.resetFor new
  else r

/-- Every station takes the commit (R61). -/
def State.commitStations (s : State) (old : Plan) : State :=
  { s with stations := Tab.gen fun k => (s.station k).atCommit (old.stations.get k) (s.stationEntry k) }

end Sys2Proof.Machine
end

