-- ==== Sys2Proof/Machine/Reaches.lean ====
section
/-! DEFINITION. The Transit Unit (chapter 4): the minute event of a reach, the look-ahead sum, reseeding, and the reach lines
at a commit. -/

namespace Sys2Proof.Machine

/-- The whole travel time as one parcel (R64, R70, R71). -/
def oneParcel (flow tau : Nat) : List Parcel := [{ flow := flow, minutes := tau }]

/-- The line without its front minute (R65 step 2). -/
def dropFront : List Parcel → List Parcel
  | [] => []
  | p :: ps => if p.minutes ≤ 1 then ps else { p with minutes := p.minutes - 1 } :: ps

/-- The flow of the oldest parcel (R65 step 1, R74), 0 for an empty line. -/
def nextArrival : List Parcel → Nat
  | [] => 0
  | p :: _ => p.flow

/-- A minute folded into a parcel (R67). -/
def Parcel.fold (y : Parcel) (q : Nat) : Parcel :=
  { flow := (y.flow * y.minutes + q) / (y.minutes + 1), minutes := y.minutes + 1 }

/-- The line with a minute of outflow appended, and whether it was folded in (R66, R67). -/
def appendMinute (line : List Parcel) (q : Nat) : List Parcel × Bool :=
  match line.getLast? with
  | none => (line ++ oneParcel q 1, false)
  | some y =>
    if y.flow = q ∧ y.minutes < Config.parcelMinutes then
      (line.dropLast ++ [{ y with minutes := y.minutes + 1 }], false)
    else if line.length < Config.parcelCap then (line ++ oneParcel q 1, false)
    else (line.dropLast ++ [y.fold q], true)

/-- The water of the line that arrives within a number of minutes (R68). -/
def lookAhead : List Parcel → Nat → Nat
  | [], _ => 0
  | p :: ps, h => p.flow * min p.minutes h + lookAhead ps (h - p.minutes)

/-- The look-ahead sum A_H for a horizon (R68, R69). -/
def aheadFor (line : List Parcel) (horizon tau qOut : Nat) : Nat := lookAhead line horizon + (horizon - tau) * qOut

/-- The volume of a line in fu-minutes (R74). -/
def lineVolume (line : List Parcel) : Nat := (line.map fun p => p.flow * p.minutes).sum

/-- The minutes of a line (R64). -/
def lineMinutes (line : List Parcel) : Nat := (line.map Parcel.minutes).sum

/-- The causes of REACH_RESEEDED (section 12.3). -/
inductive ReseedCause where
  | seeding | request | commit
  deriving DecidableEq, Repr

def ReseedCause.code : ReseedCause → Nat
  | .seeding => 0
  | .request => 1
  | .commit => 2

/-- A reach line is replaced by one parcel (R70, R71, R72) and REACH_RESEEDED is sent. -/
def State.reseed (s : State) (k : ReachId) (flow : Nat) (cause : ReseedCause) : State :=
  let tau := (s.reachEntry k).tau
  (s.setReach k { s.reach k with line := oneParcel flow tau, unseeded := false }).notify .reachReseeded (.reach k.1)
    (cause.code * 4096 + tau) flow

/-- A seeded reach takes a minute of outflow (R65 steps 2 and 3): REACH_COARSENED follows a fold. -/
def State.advanceLine (s : State) (k : ReachId) (q : Nat) : State :=
  let r := s.reach k
  match appendMinute (dropFront r.line) q with
  | (line, false) => s.setReach k { r with line := line }
  | (line, true) =>
    (s.setReach k { r with line := line, coarse := countUp r.coarse }).notify .reachCoarsened (.reach k.1)
      ((line.getLast?.map Parcel.minutes).getD 0) (countUp r.coarse)

/-- The minute event of a reach on its own line (R65, R70). -/
def State.reachMinute (s : State) (k : ReachId) : State :=
  let up := s.station (upperOf k)
  if (s.reach k).unseeded then
    if up.positioned then s.reseed k up.qOut .seeding else s
  else s.advanceLine k up.qOut

/-- A present reach takes its minute event and hands the arrival and A_H to the station below, whose balance event follows
(R65, R47). -/
def State.deliver (s : State) (k : ReachId) : State :=
  if (s.reachEntry k).isPresent then
    let arrival := nextArrival (s.reach k).line
    let s := s.reachMinute k
    s.balanceEvent (lowerOf k) arrival
      (aheadFor (s.reach k).line (s.stationEntry (lowerOf k)).horizon (s.reachEntry k).tau
        (s.station (upperOf k)).qOut)
  else s

/-- RESEED_REACH (R71). -/
def State.handleReseedReach (s : State) (args : List Byte) : Answer :=
  match (oneByte args).bind (toFin? 5) with
  | none => s.deny .badArgument
  | some k =>
    if (s.reachEntry k).isPresent then (s.reseed k (s.station (upperOf k)).qOut .request).grant []
    else s.deny .refusedState

/-- A reach takes the commit (R72), from its old entry. -/
def State.commitReach (s : State) (old : Plan) (k : ReachId) : State :=
  let was := old.reaches.get k
  let e := s.reachEntry k
  if was.isPresent && e.isPresent then
    if was.tau = e.tau then s
    else if (s.reach k).unseeded then s.setReach k { s.reach k with line := oneParcel 0 e.tau }
    else s.reseed k (s.station (upperOf k)).qOut .commit
  else if e.isPresent then s.setReach k (Reach.resetWith e.tau)
  else if was.isPresent then s.setReach k Reach.absent
  else s

end Sys2Proof.Machine
end

