-- ==== Sys2Proof/Machine/Admission.lean ====
section
/-! DEFINITION. The Admission Unit (chapter 6): authority, the window clamp, rejections, and the requests of the schedule and
of fallback. -/

namespace Sys2Proof.Machine

/-- The frame types the Admission Unit rejects (section 12.3). -/
inductive AdmissionFrame where
  | setpoint | keepalive | inflow
  deriving DecidableEq, Repr

def AdmissionFrame.code : AdmissionFrame → Nat
  | .setpoint => 0
  | .keepalive => 1
  | .inflow => 2

/-- One more rejection of a cause (R98). -/
def RejectCounts.add (c : RejectCounts) : RejectCause → RejectCounts
  | .unknownIssuer => { c with unknownIssuer := countUp c.unknownIssuer }
  | .noRight => { c with noRight := countUp c.noRight }
  | .outOfWindow => { c with outOfWindow := countUp c.outOfWindow }
  | .gateUnbound => { c with gateUnbound := countUp c.gateUnbound }
  | .gateUnavailable => { c with gateUnavailable := countUp c.gateUnavailable }
  | .stationAbsent => { c with stationAbsent := countUp c.stationAbsent }

/-- A frame is rejected (R104): its cause is counted and ADMIT_REJECT is sent with the issuer as its subject (R116);
`target` is the gate or station number the frame carried. -/
def State.reject (s : State) (frame : AdmissionFrame) (issuer target : Nat) (cause : RejectCause) (value : Nat) : State :=
  { s with rejects := s.rejects.add cause }.notify .admitReject (.issuer issuer)
    (frame.code * 4096 + cause.code * 256 + target) value

/-- The authority entry of a frame's issuer (R100); an issuer byte above 63 finds none (R172). -/
def State.authority (s : State) (issuer : Nat) : Option AuthEntry :=
  if issuer ≤ 63 then s.active.authFor issuer else none

/-- The first check of R100 that fails, none when all pass. -/
def State.authorityFault (s : State) (issuer : Nat) (override : Bool) : Option RejectCause :=
  match s.authority issuer with
  | none => some .unknownIssuer
  | some e => if !e.command || (override && !e.override) then some .noRight else none

/-- The gate lies in the issuer's window (R101). -/
def State.inIssuerWindow (s : State) (issuer gate : Nat) : Bool :=
  match s.authority issuer with
  | none => false
  | some e => e.inWindow gate

/-- The bounds lo and hi of the window clamp, with the unreachable mark of the lower inverse (R107). -/
def State.clampBounds (s : State) (k : StationId) (g : Gate) : Nat × Nat × Bool :=
  let g0 := (s.chan g).plannedOpening
  let others : Int := s.plannedExcept k fun h => h == g
  match toFin? 12 (s.gateEntry g).surface with
  | none => (g0, g0, false)
  | some f =>
    let sf := s.active.surfaces.get f
    let low := lowerInverse sf (s.headOf k) ((s.station k).qmin - others)
    (min g0 low.1, max g0 (upperInverse sf (s.headOf k) ((s.station k).qmax - others)), low.2)

/-- The target and the clamp mark for a request between the bounds (R108). `ranged` says that R105 brought the opening
down. -/
def clampTo (r lo hi : Nat) (unreachable ranged : Bool) : Nat × ClampMark :=
  let t := min (max r lo) hi
  (t, if t < r then .capMax
      else if r < t then (if unreachable then .unreachableMin else .capMin)
      else if ranged then .range else .none)

/-- The window clamp of a request (R106 to R108). -/
def State.windowClamp (s : State) (k : StationId) (g : Gate) (r : Nat) (ranged : Bool) : Nat × ClampMark :=
  let (lo, hi, unreachable) := s.clampBounds k g
  clampTo r lo hi unreachable ranged

/-- The WINDOW_CLAMP notice (R116), sent when the mark is not NONE. -/
def State.notifyClamp (s : State) (g : Gate) (mark : ClampMark) (source : Source) (received target : Nat) : State :=
  if mark = .none then s
  else s.notify .windowClamp (.gate g.1) (packDetail mark.code source.code) (packValue received target)

/-- A request from inside the part is window-clamped and taken (R114 step 4, R115). -/
def State.clampAndTake (s : State) (k : StationId) (g : Gate) (opening : Nat) (source : Source) : State :=
  let (target, mark) := s.windowClamp k g opening false
  (s.takeRequest g target source mark).notifyClamp g mark source opening target

/-- The causes of SCHEDULE_DISCARDED (section 12.3). -/
inductive DiscardCause where
  | unbound | silence | unavailable
  deriving DecidableEq, Repr

def DiscardCause.code : DiscardCause → Nat
  | .unbound => 1
  | .silence => 2
  | .unavailable => 3

/-- Why a schedule request is discarded (R114 steps 1 to 3), none when it is carried out. -/
def State.scheduleDiscard (s : State) (g : Gate) : Option DiscardCause :=
  if !s.active.bound g then some .unbound
  else if s.silenceLevelOf g ≠ .l0 then some .silence
  else if !(s.chan g).state.takes then some .unavailable
  else none

/-- A schedule request is judged (R114). -/
def State.takeSchedule (s : State) (index gate opening : Nat) : State :=
  match toFin? 48 gate with
  | none => s.notify .scheduleDiscarded (.gate gate) (packDetail DiscardCause.unbound.code index) opening
  | some g =>
    match s.scheduleDiscard g, (s.gateEntry g).station? with
    | some cause, _ => s.notify .scheduleDiscarded (.gate g.1) (packDetail cause.code index) opening
    | none, some k => s.clampAndTake k g opening .schedule
    | none, none => s

end Sys2Proof.Machine
end

