-- ==== Sys2Proof/Machine/Silence.lean ====
section
/-! DEFINITION. The Dispatch Silence Monitor (chapter 7): activity, the two expiries, resumption, and the silence records at a
commit. -/

namespace Sys2Proof.Machine

/-- The causes of SILENCE_RESUME (section 12.3). -/
inductive ResumeCause where
  | activity | request | commit
  deriving DecidableEq, Repr

def ResumeCause.code : ResumeCause → Nat
  | .activity => 0
  | .request => 1
  | .commit => 2

/-- A timer restarted for a plan entry (R118): running with the full period for a supervised station, stopped
otherwise. -/
def restartedTimer (e : StationEntry) : Option Nat := if 0 < e.silenceCount then some e.silencePeriod else none

/-- A silence record of a present station newly supervised, of an absent one, or after a reset (R117). -/
def silenceReset (e : StationEntry) : SilenceRec :=
  { level := .l0, timer := if e.isPresent then restartedTimer e else none }

/-- The bound gates of a station in HOLD with cause SILENCE, ascending. -/
def State.silenceHeld (s : State) (k : StationId) : List Gate :=
  (s.active.gatesOf k).filter fun g => (s.chan g).state == .hold .silence

/-- A channel leaves its silence hold at a resumption (R122): it enters IDLE and, outside a gang, judges at once; a
member's gang takes its event after the station's (R122, log 8). -/
def State.leaveSilenceHold (s : State) (g : Gate) : State :=
  let s := s.enter g .idle
  if (s.active.gangOf g).isNone then s.judge g else s

/-- The channels of a station whose source is FALLBACK, ascending. -/
def State.fallbackSourced (s : State) (k : StationId) : List Gate :=
  (s.active.gatesOf k).filter fun g => (s.chan g).source == .fallback

/-- A station returns to level 0 (R122, R123, R124): the timer as given, the silence holds end, pending marks are cleared,
at a return from level 2 the sources FALLBACK become DISPATCH, and SILENCE_RESUME follows. -/
def State.resumeStation (s : State) (k : StationId) (timer : Option Nat) (cause : ResumeCause) : State :=
  let left := (s.silenceOf k).level
  let held := s.silenceHeld k
  let s := s.setSilence k { level := .l0, timer := timer }
  let s := forEach held (fun g s => s.leaveSilenceHold g) s
  let s := forEach (s.active.gatesOf k) (fun g s => s.setChan g { s.chan g with silencePending := false }) s
  let turned := if left = .l2 then s.fallbackSourced k else []
  let s := forEach turned (fun g s => s.setChan g { s.chan g with source := .dispatch }) s
  let s := s.notify .silenceResume (.station k.1) (packDetail cause.code left.code)
    (packValue held.length turned.length)
  s.gangReviews .other (s.active.gangsOf k)

/-- The silence timer restarts when the station is supervised (R118, R119). -/
def State.restartSilence (s : State) (k : StationId) : State :=
  match restartedTimer (s.stationEntry k) with
  | some n => s.setSilence k { s.silenceOf k with timer := some n }
  | none => s

/-- Activity of a station (R119). -/
def State.activity (s : State) (k : StationId) : State :=
  match (s.silenceOf k).level with
  | .l0 => s.restartSilence k
  | .l1 => s.resumeStation k (restartedTimer (s.stationEntry k)) .activity
  | .l2 => s

/-- The effect of the first expiry on one channel (R120). -/
def State.silenceChannel (s : State) (g : Gate) : State :=
  match (s.chan g).state with
  | .idle => s.enter g (.hold .silence)
  | .dwell _ => s.enter g (.hold .silence)
  | .step _ _ => s.setChan g { s.chan g with silencePending := true }
  | _ => s

/-- The silence timer has expired at a level. -/
def State.silenceDue (s : State) (k : StationId) (level : SilenceLevel) : Bool :=
  (s.stationEntry k).isPresent && decide ((s.silenceOf k).level = level) && decide ((s.silenceOf k).timer = some 0)

/-- The first expiry (R120). -/
def State.firstSilence (s : State) (k : StationId) : State :=
  if s.silenceDue k .l0 then
    let gates := s.active.gatesOf k
    let moved := (gates.filter fun g => (s.chan g).state == .idle || (s.chan g).state.isDwell).length
    let marked := (gates.filter fun g => (s.chan g).state.isStep).length
    let period := (s.stationEntry k).silencePeriod
    let s := forEach gates (fun g s => s.silenceChannel g) s
    let s := s.setSilence k { level := .l1, timer := some period }
    let s := s.notify .silenceHold (.station k.1) (packDetail moved marked) period
    s.gangReviews .other (s.active.gangsOf k)
  else s

/-- The channel states that receive a fallback request (R121). -/
def Channel.fallsBack (c : Channel) : Bool :=
  match c.state with
  | .hold .silence => true
  | .idle => true
  | .dwell _ => true
  | .step _ _ => c.silencePending
  | _ => false

/-- The bound gates of a station that receive a fallback request, with their fallback targets, ascending (R121). -/
def State.fallbackList (s : State) (k : StationId) : List (Gate × Nat) :=
  (s.active.gatesOf k).filterMap fun g =>
    if (s.chan g).fallsBack then (s.gateEntry g).fallback?.map fun t => (g, t) else none

/-- The fallback requests one after another, each judged against the targets set before it (R115, R121), with the number
that took a clamp mark. -/
def State.giveFallback (s : State) (k : StationId) : List (Gate × Nat) → Nat → State × Nat
  | [], n => (s, n)
  | (g, t) :: rest, n =>
    (s.clampAndTake k g t .fallback).giveFallback k rest
      (if (s.windowClamp k g t false).2 = .none then n else n + 1)

/-- The second expiry (R121). -/
def State.secondSilence (s : State) (k : StationId) : State :=
  if s.silenceDue k .l1 then
    let list := s.fallbackList k
    let s := s.setSilence k { level := .l2, timer := none }
    let (s, clamped) := s.giveFallback k list 0
    s.notify .silenceFallback (.station k.1) (packDetail list.length (s.silenceHeld k).length) clamped
  else s

/-- RESUME_STATION (R123). -/
def State.handleResumeStation (s : State) (args : List Byte) : Answer :=
  match (oneByte args).bind (toFin? 6) with
  | none => s.deny .badArgument
  | some k =>
    if (s.stationEntry k).isPresent then
      match (s.silenceOf k).level with
      | .l0 => (s.restartSilence k).grant []
      | .l1 => (s.resumeStation k (restartedTimer (s.stationEntry k)) .request).grant []
      | .l2 => (s.resumeStation k (restartedTimer (s.stationEntry k)) .request).grant []
    else s.deny .refusedState

/-- A silence record takes the commit (R124), from the old plan. -/
def State.commitSilence (s : State) (old : Plan) (k : StationId) : State :=
  let e := s.stationEntry k
  let r := s.silenceOf k
  if (old.stations.get k).isPresent && e.isPresent then
    if 0 < e.silenceCount then
      s.setSilence k { r with timer := if r.level = .l2 then none else restartedTimer e }
    else if r.level = .l0 then s.setSilence k { r with timer := none }
    else s.resumeStation k none .commit
  else if e.isPresent then s.setSilence k (silenceReset e)
  else if (old.stations.get k).isPresent then
    let s := s.setSilence k { level := .l0, timer := none }
    if r.level = .l0 then s
    else s.notify .silenceResume (.station k.1) (packDetail ResumeCause.commit.code r.level.code) 0
  else s

end Sys2Proof.Machine
end

