-- ==== Sys2Proof/Machine/ClockSchedule.lean ====
section
/-! DEFINITION. The Plant Clock and Schedule Unit (chapter 8): the second tick as every block takes it, the model minute and
its parts, the schedule, and SET_CLOCK. -/

namespace Sys2Proof.Machine

/-- The last day of a year (R129). -/
def lastDay (year : Nat) : Nat := if year % 4 = 0 then 366 else 365

/-- The counters one second later, with every carry of the tick (R130). -/
def Clock.tick (c : Clock) : Clock :=
  if c.second < 59 then { c with second := c.second + 1 }
  else if c.minute < 59 then { c with second := 0, minute := c.minute + 1 }
  else if c.hour < 23 then { c with second := 0, minute := 0, hour := c.hour + 1 }
  else if c.day < lastDay c.year then { c with second := 0, minute := 0, hour := 0, day := c.day + 1 }
  else { year := if c.year < 99 then c.year + 1 else 0, day := 1, hour := 0, minute := 0, second := 0 }

/-- A valid time (R129). -/
def Clock.valid (c : Clock) : Bool :=
  decide (c.year ≤ 99) && decide (1 ≤ c.day) && decide (c.day ≤ lastDay c.year) && decide (c.hour ≤ 23)
    && decide (c.minute ≤ 59) && decide (c.second ≤ 59)

/-- The step timeout has run out (R15). -/
def ChanState.timedOut : ChanState → Bool
  | .step _ 0 => true
  | _ => false

/-- The timer a channel state holds, one tick later (R15, R16). -/
def ChanState.tick : ChanState → ChanState
  | .step t n => .step t (n - 1)
  | .dwell (some n) => .dwell (some (n - 1))
  | st => st

/-- A channel takes a tick (R9, R15, R16): its age runs while it has a measured opening, and the limit reached makes its
staleness due. -/
def Channel.tick (c : Channel) (limit : Nat) : Channel :=
  let c := { c with state := c.state.tick }
  if c.measured.isSome && c.state != .unbound then
    { c with age := ageUp c.age, staleDue := c.staleDue || (!c.stale && decide (limit ≤ ageUp c.age)) }
  else c

/-- A gauge record takes a tick (R45). -/
def GaugeRec.tick (g : GaugeRec) (limit : Nat) : GaugeRec :=
  if g.level.isSome then
    { g with age := ageUp g.age, staleDue := g.staleDue || (!g.stale && decide (limit ≤ ageUp g.age)) }
  else g

/-- A gang takes a tick (R84). -/
def Gang.tick (r : Gang) : Gang :=
  { r with dwell := r.dwell.map fun d => { d with remaining := d.remaining - 1 } }

/-- A silence record takes a tick (R118). -/
def SilenceRec.tick (r : SilenceRec) : SilenceRec := { r with timer := r.timer.map fun n => n - 1 }

/-- An ONCE entry that fires clears its armed mark (R135, R136). -/
def State.disarm (s : State) (n : Fin 32) (e : SchedEntry) : State :=
  if e.once then { s with armed := s.armed.set n false } else s

/-- A schedule entry matches the counters (R136). -/
def scheduleMatches (e : SchedEntry) (c : Clock) : Bool :=
  e.isPresent && (!e.dayOn || e.day == c.day) && (!e.hourOn || e.hour == c.hour) && (!e.minuteOn || e.minute == c.minute)

/-- An entry that matches fires (R136): disarmed when ONCE, SCHEDULE_FIRED, then its request. -/
def State.fire (s : State) (n : Fin 32) : State :=
  let e := s.active.sched.get n
  if s.armed.get n && scheduleMatches e s.clock then
    ((s.disarm n e).notify .scheduleFired (.gate e.gate) (packDetail n.1 (e.mode * 16 + e.once.toNat)) e.opening).takeSchedule
      n.1 e.gate e.opening
  else s

/-- The schedule is matched against the counters (R136). -/
def State.scheduleEvent (s : State) : State := forEach (allFin 32) (fun n s => s.fire n) s

/-- The outflow events of a minute, when they are still owed (R46, R131, log 1). -/
def State.minuteOutflow (s : State) : State :=
  if s.minuteDue.outflow then
    let s := forEach (allFin 6) (fun k s => s.outflowEvent k) s
    { s with minuteDue := { s.minuteDue with outflow := false } }
  else s

/-- The reach that delivers to a station (R47), none for station 0. -/
def reachInto (k : StationId) : Option ReachId := if k.1 = 0 then none else toFin? 5 (k.1 - 1)

/-- A station's balance event in its place of the cascade (R47, R65): station 0 with no arrival, any other behind the minute
event of the reach that delivers to it. -/
def State.stationMinute (s : State) (k : StationId) : State :=
  match reachInto k with
  | none => s.balanceEvent k 0 0
  | some r => s.deliver r

/-- The balance event of the first station it is still owed to (R47). A reach that a COMMIT made present between the outflow
events and this one takes the minute's event too, with the outflow and the indication its upper station holds from before the
commit (log 4). -/
def State.minuteBalance (s : State) : State :=
  match s.minuteDue.balance with
  | [] => s
  | k :: ks => ({ s with minuteDue := { s.minuteDue with balance := ks } } : State).stationMinute k

/-- The schedule's work of a minute, when it is still owed (R131, R136, log 1). -/
def State.minuteSchedule (s : State) : State :=
  if s.minuteDue.schedule then
    ({ s with minuteDue := { s.minuteDue with schedule := false } } : State).scheduleEvent
  else s

/-- An event that the passing of time makes due: the expiries of the timers and ages (log 3), and the events of a model minute
(log 4). -/
inductive DueEvent where
  | positionStale (gate : Gate)
  | stepTimeout (gate : Gate)
  | dwellExpiry (gate : Gate)
  | gangDwellExpiry (gang : GangId)
  | gaugeStale (station : StationId) (role : GaugeRole)
  | silence (station : StationId)
  | outflow
  | balance
  | schedule
  deriving DecidableEq, Repr

/-- The event is due and not yet taken (R9, R15, R16, R84, R45, R118, R131). -/
def State.isDue (s : State) : DueEvent → Bool
  | .positionStale g => (s.chan g).staleDue && (s.chan g).state != .unbound
  | .stepTimeout g => (s.chan g).state.timedOut
  | .dwellExpiry g => (s.chan g).state == .dwell (some 0)
  | .gangDwellExpiry c => (s.gang c).dwell.any fun d => d.remaining == 0
  | .gaugeStale k role => ((s.station k).gauge role).staleDue && (s.stationEntry k).isPresent
  | .silence k => s.silenceDue k .l0 || s.silenceDue k .l1
  | .outflow => s.minuteDue.outflow
  | .balance => !s.minuteDue.balance.isEmpty
  | .schedule => s.minuteDue.schedule

/-- The event, which does nothing when it is not due: when the Responder or a frame's begin came before it and a SET_CLOCK has
taken the minute, or a request has ended the timer, since it was found due (log 1). -/
def State.takeDue (s : State) : DueEvent → State
  | .positionStale g => s.positionGoesStale g
  | .stepTimeout g => s.stepTimesOut g
  | .dwellExpiry g => s.dwellExpires g
  | .gangDwellExpiry c => s.gangDwellExpires c
  | .gaugeStale k role => s.gaugeGoesStale k role
  | .silence k => if (s.silenceOf k).level = .l0 then s.firstSilence k else s.secondSilence k
  | .outflow => s.minuteOutflow
  | .balance => s.minuteBalance
  | .schedule => s.minuteSchedule

/-- The events of a part of the minute, in their order (R47, R131; log 4): one for the outflow of all stations, one for the
balance of each station, one for the schedule. The balance takes the outflow events first when they are still owed. -/
def minuteEvents : MinutePart → List DueEvent
  | .whole => .outflow :: List.replicate 6 .balance ++ [.schedule]
  | .outflow => [.outflow]
  | .balance => .outflow :: List.replicate 6 .balance
  | .schedule => [.schedule]

/-- Every expiry, in the order in which those left over are taken at the next tick (log 3). -/
def expiries : List DueEvent :=
  (allFin 48).map .positionStale ++ (allFin 48).map .stepTimeout ++ (allFin 48).map .dwellExpiry
    ++ (allFin 8).map .gangDwellExpiry
    ++ (allFin 6).flatMap (fun k => [.gaugeStale k .headwater, .gaugeStale k .tailwater])
    ++ (allFin 6).map .silence

/-- Those of the events that are due are taken, one after another; `event` runs each as an event of the part. -/
def State.takeEach (s : State) (event : State → (State → State) → State) (es : List DueEvent) : State :=
  forEach es (fun e s => if s.isDue e then event s (fun s => s.takeDue e) else s) s

/-- Work of a model minute is still owed (log 4). -/
def State.minuteOwed (s : State) : Bool := (minuteEvents .whole).any fun e => s.isDue e

/-- A station record takes a tick (R45). -/
def Station.tick (r : Station) (limit : Nat) : Station := { r with hw := r.hw.tick limit, tw := r.tw.tick limit }

/-- The second tick as the blocks take it (R128), with the counters' carries (R130) and the model minute they make
(R131). -/
def State.tick (s : State) : State :=
  { s with
    chans := Tab.gen fun g => (s.chan g).tick (s.gateEntry g).staleLimit
    stations := Tab.gen fun k => (s.station k).tick (s.stationEntry k).staleLimit
    gangs := Tab.gen fun c => (s.gang c).tick
    silence := Tab.gen fun k => (s.silenceOf k).tick
    clock := s.clock.tick
    prescaler := 0
    minuteDue := if s.clock.second = 59 then MinuteDue.all else s.minuteDue }

/-- A clock in 6 bytes (section 12.2). -/
def Clock.bytes (c : Clock) : List Byte :=
  [byteOf c.year] ++ beBytes 2 c.day ++ [byteOf c.hour, byteOf c.minute, byteOf c.second]

/-- The clock a SET_CLOCK request names (section 12.2). -/
def readClock (args : List Byte) : Clock :=
  { year := byteAt args 0, day := fieldAt args 1 2, hour := byteAt args 3, minute := byteAt args 4,
    second := byteAt args 5 }

/-- The arguments of a SET_CLOCK name a valid time (R129, R132). -/
def clockArgs (args : List Byte) : Bool := decide (args.length = 6) && (readClock args).valid

/-- SET_CLOCK (R132). -/
def State.handleSetClock (s : State) (args : List Byte) : Answer :=
  if clockArgs args then
    let before := s.clock
    let s := { s with clock := readClock args, prescaler := 0 }
    (s.notify .clockSet .none before.day before.plantTime.second).grant (before.bytes ++ (readClock args).bytes)
  else s.deny .badArgument

end Sys2Proof.Machine
end

