-- ==== Sys2Proof/Machine/Ports.lean ====
section
/-! DEFINITION. The line ports (chapter 9): the framer and the Classifier for frames that need no other unit, the field's
frames, FIELD_READY, and the transmitters. -/

namespace Sys2Proof.Machine

/-- The bytes received between the marks (R139): the damaged count of the port rises when they are damaged; bytes that are a
good frame are another command's (log 17). -/
def State.receiveDamaged (s : State) (port : Port) (bytes : List Byte) (endMarked : Bool) : State :=
  if frameDamaged bytes endMarked then
    match port with
    | .d => s.countD PortCounts.addDamaged
    | .f => s.countF PortCounts.addDamaged
  else s

/-- A MGMT_REQ that names the part's node (R141). -/
def State.forNode (s : State) (f : LineFrame) : Bool := f.typ == typMgmtReq && s.node == some f.dest

/-- A frame from dispatch that is passed on (R141): one of a type the part does not read, or a MGMT_REQ for another node,
goes to ROUTINE. A frame of a type that is another command's acts on nothing here (log 17). -/
def State.receivePass (s : State) (f : LineFrame) : State :=
  if !payloadFits f.payload then s.countD PortCounts.addDamaged
  else if isAdmissionType f.typ || s.forNode f then s
  else (s.countD PortCounts.addReceived).passToField f

/-- A field frame of a type the Classifier does not tap goes to UP_FWD (R142). A payload no line frame can hold is damaged
(R139, log 17). -/
def State.receiveForward (s : State) (f : LineFrame) : State :=
  if !payloadFits f.payload then s.countF PortCounts.addDamaged
  else if isTappedType f.typ then s
  else (s.countF PortCounts.addReceived).forwardUp f

/-- The tap of a POSITION frame (R4, R142): a gate byte of 48 or more reaches no channel. -/
def State.tapPosition (s : State) (payload : List Byte) : State :=
  if payload.length = positionLen then
    match toFin? 48 (byteAt payload 0) with
    | some g => s.takePosition g (fieldAt payload 1 2) (payload.getD 3 0#8)
    | none => s
  else s.countF PortCounts.addDamaged

/-- A POSITION frame (R4, R142): received, tapped, then forwarded. -/
def State.receivePosition (s : State) (dest : Byte) (payload : List Byte) : State :=
  if payloadFits payload then
    ((s.countF PortCounts.addReceived).tapPosition payload).forwardUp
      { dest := dest, typ := typPosition, payload := payload }
  else s.countF PortCounts.addDamaged

/-- The tap of a GAUGE frame (R42, R142): a gauge byte above 15 acts on no station. -/
def State.tapGauge (s : State) (payload : List Byte) : State :=
  if payload.length = gaugeLen then
    if byteAt payload 0 ≤ 15 then s.takeGauge (byteAt payload 0) (fieldAt payload 1 2) (byteAt payload 3) else s
  else s.countF PortCounts.addDamaged

/-- A GAUGE frame (R42, R142): received, tapped, then forwarded. -/
def State.receiveGauge (s : State) (dest : Byte) (payload : List Byte) : State :=
  if payloadFits payload then
    ((s.countF PortCounts.addReceived).tapGauge payload).forwardUp
      { dest := dest, typ := typGauge, payload := payload }
  else s.countF PortCounts.addDamaged

/-- The queue a frame is taken from, and the streak after (R146). -/
def PortF.choice (p : PortF) : Option (FieldQueue × Nat) :=
  match p.urgent, p.routine with
  | [], [] => none
  | _ :: _, [] => some (.urgent, min (p.streak + 1) Config.streakMax)
  | _ :: _, _ :: _ =>
    if p.streak < Config.streakMax then some (.urgent, p.streak + 1) else some (.routine, 0)
  | [], _ :: _ => some (.routine, 0)

/-- The frames of a queue. -/
def PortF.frames (p : PortF) : FieldQueue → List LineFrame
  | .urgent => p.urgent
  | .routine => p.routine

/-- The queue without its oldest frame. -/
def PortF.pop (p : PortF) : FieldQueue → PortF
  | .urgent => { p with urgent := p.urgent.drop 1 }
  | .routine => { p with routine := p.routine.drop 1 }

/-- A transmission is due on port F (R145): the field is ready, the transmitter free and a queue holds a frame. -/
def State.dueF (s : State) : Bool := s.fieldReady && s.portF.sending.isNone && s.portF.choice.isSome

/-- A good frame from dispatch that goes to ROUTINE unjudged (R141, R102). -/
def State.goesToField (s : State) (f : LineFrame) : Bool := f.mayPass && !s.forNode f

/-- A frame from dispatch takes the place freed in ROUTINE before the waiting channels (R144, log 6). -/
def State.claimRoom (s : State) (q : FieldQueue) (claim : Claim) : State :=
  match q, claim with
  | .routine, .frame f => if s.goesToField f then (s.countD PortCounts.addReceived).passToField f else s
  | _, _ => s

/-- Port F begins the oldest frame of the queue chosen (R145, R146), and reports the room to the channels waiting for that
queue, which judge in the order in which they began to wait (R144). -/
def State.beginF (s : State) (claim : Claim) : State :=
  match s.portF.choice with
  | some (q, streak) =>
    if s.dueF then
      let sent := s.setPortF { s.portF.pop q with streak := streak, sending := (s.portF.frames q).head? }
      let s := sent.claimRoom q claim
      forEach (s.portF.waiting q).settled (fun g s => s.judge g) s
    else s
  | none => s

/-- A notice in its 14 bytes (section 12.3); `number` stands for the subject number of a notice without subject
(log 14). -/
def Notice.bytes (n : Notice) (number : Byte) : List Byte :=
  [byteOf n.kind.code, byteOf n.subject.classCode, match n.subject.number with
    | some k => byteOf k
    | none => number, byteOf n.gap.toNat]
    ++ n.time.bytes ++ beBytes 2 n.detail ++ beBytes 4 n.value

/-- A reply in its bytes (section 12.1). -/
def Reply.bytes (r : Reply) : List Byte :=
  [r.issuer, r.kind] ++ beBytes 2 r.tag ++ [byteOf r.status.code] ++ r.results

/-- One of the part's own frames as it stands on the line, to the broadcast number (R140). -/
def OwnFrame.frame (f : OwnFrame) (number : Byte) : LineFrame :=
  match f with
  | .notice n => { dest := broadcast, typ := typNotice, payload := n.bytes number }
  | .reply r => { dest := broadcast, typ := typMgmtReply, payload := r.bytes }

/-- The queue port D takes its next frame from (R148). -/
def PortD.choice (p : PortD) : Option UpQueue :=
  match p.fwd, p.own with
  | [], [] => none
  | _ :: _, [] => some .fwd
  | [], _ :: _ => some .own
  | _ :: _, _ :: _ =>
    match p.lastFrom with
    | .fwd => some .own
    | .own => some .fwd

/-- A transmission is due on port D (R148): the transmitter is free and a queue holds a frame. -/
def State.dueD (s : State) : Bool := s.portD.sending.isNone && s.portD.choice.isSome

/-- Port D begins the oldest frame of the queue chosen (R148). -/
def State.beginD (s : State) : State :=
  if s.portD.sending.isNone then
    match s.portD.choice, s.portD.fwd, s.portD.own with
    | some .fwd, f :: rest, _ => s.setPortD { s.portD with fwd := rest, lastFrom := .fwd, sending := some f }
    | some .own, _, f :: rest =>
      (s.setPortD { s.portD with own := rest, lastFrom := .own,
                                 sending := some (f.frame (Config.freeByte s.freeCount 0)) }).useFree
    | _, _, _ => s
  else s

/-- A transmission due on port F begins, as an event of its own, and the place it frees goes to the waiting channels (R145). -/
def State.beginsF (s : State) : State := if s.dueF then (s.beginF .channels).finish else s

/-- The transmissions due begin, port D's and then port F's, while the Responder is at work: it takes a place freed in UP_OWN when
it goes on (R145, R148, R149; log 5). -/
def State.onLines (s : State) : State := s.beginD.beginsF

end Sys2Proof.Machine
end

