-- ==== Sys2Proof/Machine/PlanStore.lean ====
section
/-! DEFINITION. The Plan Store (chapter 10): the entry layouts of section 12.4, validation, load runs, PLAN_CONTROL and the
retained write. -/

namespace Sys2Proof

/-- A mark entry in its 3 bytes (section 12.4). -/
def MarkEntry.bytes (m : MarkEntry) : List Byte := m.flags :: beBytes 2 m.level
/-- A mark entry from its 3 bytes at an offset. -/
def readMark (b : List Byte) (off : Nat) : MarkEntry := { flags := b.getD off 0#8, level := fieldAt b (off + 1) 2 }

/-- Part 0 of a station entry, 44 bytes (section 12.4). -/
def StationEntry.part0 (e : StationEntry) : List Byte :=
  [byteOf e.present, byteOf (e.hwGauge * 16 + e.twGauge)] ++ beBytes 2 e.staleLimit ++ [byteOf e.pointCount]
    ++ beBytes 3 e.qminEnv ++ beBytes 3 e.qmaxChan ++ beBytes 3 e.qmaxDam ++ beBytes 3 e.qPreFloor
    ++ beBytes 4 e.sWatch ++ beBytes 4 e.sPre ++ beBytes 4 e.sSur ++ beBytes 4 e.hysteresis ++ beBytes 2 e.horizon
    ++ [byteOf e.silenceCount, byteOf e.silenceBase, byteOf e.compGang] ++ e.mark0.bytes ++ e.mark1.bytes

/-- A station entry written by its part 0: every point becomes 0 (R173). -/
def readStation (b : List Byte) : StationEntry :=
  { present := byteAt b 0, hwGauge := byteAt b 1 / 16, twGauge := byteAt b 1 % 16, staleLimit := fieldAt b 2 2,
    pointCount := byteAt b 4, qminEnv := fieldAt b 5 3, qmaxChan := fieldAt b 8 3, qmaxDam := fieldAt b 11 3,
    qPreFloor := fieldAt b 14 3, sWatch := fieldAt b 17 4, sPre := fieldAt b 21 4, sSur := fieldAt b 25 4,
    hysteresis := fieldAt b 29 4, horizon := fieldAt b 33 2, silenceCount := byteAt b 35, silenceBase := byteAt b 36,
    compGang := byteAt b 37, mark0 := readMark b 38, mark1 := readMark b 41,
    points := Tab.gen fun _ => { level := 0, storage := 0 } }

/-- Points 8 × half to 8 × half + 7 of a station entry, 48 bytes (section 12.4). -/
def StationEntry.pointBytes (e : StationEntry) (half : Nat) : List Byte :=
  (((e.points.list.drop (8 * half)).take 8).map fun p => beBytes 2 p.level ++ beBytes 4 p.storage).flatten

/-- A station entry with one half of its points written (R173). -/
def StationEntry.withPoints (e : StationEntry) (half : Nat) (b : List Byte) : StationEntry :=
  { e with points := Tab.gen fun i =>
      if i.1 / 8 = half then { level := fieldAt b (i.1 % 8 * 6) 2, storage := fieldAt b (i.1 % 8 * 6 + 2) 4 }
      else e.points.get i }

/-- A reach entry, 3 bytes (section 12.4). -/
def ReachEntry.bytes (e : ReachEntry) : List Byte := byteOf e.present :: beBytes 2 e.tau
def readReach (b : List Byte) : ReachEntry := { present := byteAt b 0, tau := fieldAt b 1 2 }

/-- Part 0 of a surface entry, 33 bytes (section 12.4). -/
def SurfaceEntry.part0 (e : SurfaceEntry) : List Byte :=
  [byteOf e.present, byteOf e.openingCount, byteOf e.headCount] ++ (e.openings.list.map (beBytes 2)).flatten
    ++ (e.heads.list.map (beBytes 2)).flatten

/-- A surface entry written by its part 0: every node discharge becomes 0 (R173). -/
def readSurface (b : List Byte) : SurfaceEntry :=
  { present := byteAt b 0, openingCount := byteAt b 1, headCount := byteAt b 2,
    openings := Tab.gen fun i => fieldAt b (3 + 2 * i.1) 2, heads := Tab.gen fun j => fieldAt b (21 + 2 * j.1) 2,
    nodes := Tab.gen fun _ => Tab.gen fun _ => 0 }

/-- A head row of a surface entry, 18 bytes (section 12.4). -/
def SurfaceEntry.rowBytes (e : SurfaceEntry) (j : Fin 6) : List Byte := ((e.nodes.get j).list.map (beBytes 2)).flatten

/-- A surface entry with one head row written (R173). -/
def SurfaceEntry.withRow (e : SurfaceEntry) (j : Fin 6) (b : List Byte) : SurfaceEntry :=
  { e with nodes := e.nodes.set j (Tab.gen fun i => fieldAt b (2 * i.1) 2) }

/-- A gate entry, 19 bytes (section 12.4). -/
def GateEntry.bytes (e : GateEntry) : List Byte :=
  [byteOf e.present, byteOf e.station, byteOf e.kind, byteOf e.surface] ++ beBytes 2 e.stepUp ++ beBytes 2 e.stepDown
    ++ beBytes 2 e.dwellUp ++ beBytes 2 e.dwellDown ++ [byteOf e.deadband] ++ beBytes 2 e.stepTimeout
    ++ beBytes 2 e.staleLimit ++ beBytes 2 e.fallback
def readGate (b : List Byte) : GateEntry :=
  { present := byteAt b 0, station := byteAt b 1, kind := byteAt b 2, surface := byteAt b 3, stepUp := fieldAt b 4 2,
    stepDown := fieldAt b 6 2, dwellUp := fieldAt b 8 2, dwellDown := fieldAt b 10 2, deadband := byteAt b 12,
    stepTimeout := fieldAt b 13 2, staleLimit := fieldAt b 15 2, fallback := fieldAt b 17 2 }

/-- A gang entry, 16 bytes (section 12.4). -/
def GangEntry.bytes (e : GangEntry) : List Byte :=
  [byteOf e.present, byteOf e.memberCount] ++ e.members.list.map byteOf ++ beBytes 2 e.spread ++ beBytes 2 e.dwellUp
    ++ beBytes 2 e.dwellDown
def readGang (b : List Byte) : GangEntry :=
  { present := byteAt b 0, memberCount := byteAt b 1, members := Tab.gen fun i => byteAt b (2 + i.1),
    spread := fieldAt b 10 2, dwellUp := fieldAt b 12 2, dwellDown := fieldAt b 14 2 }

/-- An authority entry, 5 bytes (section 12.4). -/
def AuthEntry.bytes (e : AuthEntry) : List Byte :=
  [byteOf e.present, byteOf e.issuer, byteOf e.base, byteOf e.mask, e.rights]
def readAuth (b : List Byte) : AuthEntry :=
  { present := byteAt b 0, issuer := byteAt b 1, base := byteAt b 2, mask := byteAt b 3, rights := b.getD 4 0#8 }

/-- A schedule entry, 10 bytes (section 12.4). -/
def SchedEntry.bytes (e : SchedEntry) : List Byte :=
  [byteOf e.present, e.enables] ++ beBytes 2 e.day
    ++ [byteOf e.hour, byteOf e.minute, byteOf e.mode, byteOf e.gate] ++ beBytes 2 e.opening
def readSched (b : List Byte) : SchedEntry :=
  { present := byteAt b 0, enables := b.getD 1 0#8, day := fieldAt b 2 2, hour := byteAt b 4, minute := byteAt b 5,
    mode := byteAt b 6, gate := byteAt b 7, opening := fieldAt b 8 2 }

/-- The places a request names by table, index and part (R151, R173). -/
inductive PlanPlace where
  | header
  | station (k : StationId)
  | points (k : StationId) (half : Nat)
  | reach (k : ReachId)
  | surface (f : SurfaceId)
  | row (f : SurfaceId) (j : Fin 6)
  | gate (g : Gate)
  | gang (c : GangId)
  | auth (n : Fin 16)
  | sched (n : Fin 32)
  deriving DecidableEq, Repr

/-- The place a table, an index and a part name, none outside the ranges of R151 and R173. -/
def planPlace (table index part : Nat) : Option PlanPlace :=
  match table, part with
  | 0, 0 => if index = 0 then some .header else none
  | 1, 0 => (toFin? 6 index).map PlanPlace.station
  | 1, 1 => (toFin? 6 index).map fun k => .points k 0
  | 1, 2 => (toFin? 6 index).map fun k => .points k 1
  | 2, 0 => (toFin? 5 index).map PlanPlace.reach
  | 3, 0 => (toFin? 12 index).map PlanPlace.surface
  | 3, p + 1 => (toFin? 12 index).bind fun f => (toFin? 6 p).map fun j => .row f j
  | 4, 0 => (toFin? 48 index).map PlanPlace.gate
  | 5, 0 => (toFin? 8 index).map PlanPlace.gang
  | 6, 0 => (toFin? 16 index).map PlanPlace.auth
  | 7, 0 => (toFin? 32 index).map PlanPlace.sched
  | _, _ => none

/-- The bytes of a place's layout (section 12.4). -/
def PlanPlace.size : PlanPlace → Nat
  | .header => 2
  | .station _ => 44
  | .points _ _ => 48
  | .reach _ => 3
  | .surface _ => 33
  | .row _ _ => 18
  | .gate _ => 19
  | .gang _ => 16
  | .auth _ => 5
  | .sched _ => 10

/-- The bytes of a place as the plan holds them (R155). -/
def Plan.read (p : Plan) : PlanPlace → List Byte
  | .header => beBytes 2 p.number
  | .station k => (p.stations.get k).part0
  | .points k half => (p.stations.get k).pointBytes half
  | .reach k => (p.reaches.get k).bytes
  | .surface f => (p.surfaces.get f).part0
  | .row f j => (p.surfaces.get f).rowBytes j
  | .gate g => (p.gates.get g).bytes
  | .gang c => (p.gangs.get c).bytes
  | .auth n => (p.auth.get n).bytes
  | .sched n => (p.sched.get n).bytes

/-- The plan with the bytes of a place written (R158, R173). -/
def Plan.write (p : Plan) (place : PlanPlace) (b : List Byte) : Plan :=
  match place with
  | .header => { p with number := fieldAt b 0 2 }
  | .station k => { p with stations := p.stations.set k (readStation b) }
  | .points k half => { p with stations := p.stations.set k ((p.stations.get k).withPoints half b) }
  | .reach k => { p with reaches := p.reaches.set k (readReach b) }
  | .surface f => { p with surfaces := p.surfaces.set f (readSurface b) }
  | .row f j => { p with surfaces := p.surfaces.set f ((p.surfaces.get f).withRow j b) }
  | .gate g => { p with gates := p.gates.set g (readGate b) }
  | .gang c => { p with gangs := p.gangs.set c (readGang b) }
  | .auth n => { p with auth := p.auth.set n (readAuth b) }
  | .sched n => { p with sched := p.sched.set n (readSched b) }

/-- A number lies in a range, ends included. -/
def within (lo n hi : Nat) : Bool := decide (lo ≤ n) && decide (n ≤ hi)

/-- The list is strictly increasing. -/
def increasing : List Nat → Bool
  | [] => true
  | [_] => true
  | a :: b :: rest => decide (a < b) && increasing (b :: rest)

/-- The list does not decrease. -/
def nondecreasing : List Nat → Bool
  | [] => true
  | [_] => true
  | a :: b :: rest => decide (a ≤ b) && nondecreasing (b :: rest)

/-- The list names nothing twice. -/
def allDifferent : List Nat → Bool
  | [] => true
  | a :: rest => !rest.contains a && allDifferent rest

/-- A mark entry has a direction of R56, when it is present. -/
def MarkEntry.directed (m : MarkEntry) : Bool := !m.isPresent || m.direction != 0
/-- A present FALLING mark with a floor (station check 10). -/
def MarkEntry.fallingFloor (m : MarkEntry) : Bool := m.isPresent && m.direction == 2 && m.floor.isSome

/-- A station is present by its number, 0 and up. -/
def Plan.stationAt (p : Plan) (n : Nat) : Bool :=
  match toFin? 6 n with
  | some k => (p.stations.get k).isPresent
  | none => false

/-- A gauge is named, in either role, by a present station of lower index (station check 4). -/
def Plan.gaugeBelow (p : Plan) (k : StationId) (gauge : Nat) : Bool :=
  (allFin 6).any fun j => decide (j.1 < k.1) && (p.stations.get j).isPresent
    && ((p.stations.get j).hwGauge == gauge || (p.stations.get j).twGauge == gauge)

/-- The checks of a present station entry: number and whether it refuses the entry (R161). -/
def Plan.stationChecks (p : Plan) (k : StationId) : List (Nat × Bool) :=
  let e := p.stations.get k
  [(1, !(within 0 e.hwGauge 15 && within 0 e.twGauge 15 && within 1 e.staleLimit 600 && within 2 e.pointCount 16
        && within 1 e.horizon 720 && [1, 10, 60].contains e.silenceBase && (within 0 e.compGang 7 || e.compGang == 255)
        && e.mark0.directed && e.mark1.directed)),
   (2, decide (0 < k.1) && !p.stationAt (k.1 - 1)),
   (3, e.hwGauge == e.twGauge),
   (4, p.gaugeBelow k e.hwGauge || p.gaugeBelow k e.twGauge),
   (5, !(increasing (e.pointList.map Point.level) && increasing (e.pointList.map Point.storage))),
   (6, decide (e.qmaxChan < e.qminEnv) || decide (e.qmaxDam < e.qmaxChan)),
   (7, decide (e.qmaxChan < e.qPreFloor)),
   (8, !increasing [e.sWatch, e.sPre, e.sSur]),
   (9, !decide (e.hysteresis < e.sWatch)),
   (10, e.mark0.fallingFloor || e.mark1.fallingFloor)]

/-- The checks of a reach entry, present or absent (R161). -/
def Plan.reachChecks (p : Plan) (k : ReachId) : List (Nat × Bool) :=
  let e := p.reaches.get k
  [(1, e.isPresent && !within 1 e.tau 1440),
   (2, e.isPresent && !(p.stationAt k.1 && p.stationAt (k.1 + 1))),
   (3, !e.isPresent && p.stationAt k.1 && p.stationAt (k.1 + 1))]

/-- A head row of a surface along its openings. -/
def SurfaceEntry.rowList (e : SurfaceEntry) (j : Nat) : List Nat :=
  (List.range e.openingList.length).map fun i => e.node i j

/-- The checks of a present surface entry (R161). -/
def Plan.surfaceChecks (p : Plan) (f : SurfaceId) : List (Nat × Bool) :=
  let e := p.surfaces.get f
  [(1, !(within 2 e.openingCount 9 && within 1 e.headCount 6 && e.openingList.all fun o => decide (o ≤ 1000))),
   (2, !increasing e.openingList),
   (3, !(e.openingList.headD 1 == 0 && e.openingList.getLastD 0 == 1000)),
   (4, !increasing e.headList),
   (5, !((List.range e.headList.length).all fun j => nondecreasing (e.rowList j)))]

/-- The checks of a present gate entry (R161). -/
def Plan.gateChecks (p : Plan) (g : Gate) : List (Nat × Bool) :=
  let e := p.gates.get g
  [(1, !(within 0 e.station 5 && within 0 e.kind 2 && within 0 e.surface 11 && within 1 e.stepUp 1000
        && within 1 e.stepDown 1000 && within 0 e.dwellUp 3600 && within 0 e.dwellDown 3600 && within 1 e.deadband 50
        && within 1 e.stepTimeout 3600 && within 1 e.staleLimit 600 && (within 0 e.fallback 1000 || e.fallback == 65535))),
   (2, !p.stationAt e.station),
   (3, match toFin? 12 e.surface with
       | some f => !(p.surfaces.get f).isPresent
       | none => true),
   (4, !(decide (e.deadband < e.stepUp) && decide (e.deadband < e.stepDown)))]

/-- A member number names a bound gate that is no wicket gate (gang check 3). -/
def Plan.spillable (p : Plan) (n : Nat) : Bool :=
  match toFin? 48 n with
  | some g => p.bound g && !(p.gates.get g).isWicket
  | none => false

/-- The stations of a gang entry's members. -/
def Plan.memberStations (p : Plan) (e : GangEntry) : List Nat := e.memberGates.map fun g => (p.gates.get g).station

/-- A gate number is named by a present gang of lower index (gang check 5). -/
def Plan.memberBelow (p : Plan) (c : GangId) (n : Nat) : Bool :=
  (allFin 8).any fun b => decide (b.1 < c.1) && (p.gangs.get b).isPresent && (p.gangs.get b).memberList.contains n

/-- The checks 1 to 5 of a present gang entry (R161). -/
def Plan.gangChecks (p : Plan) (c : GangId) : List (Nat × Bool) :=
  let e := p.gangs.get c
  [(1, !(within 2 e.memberCount 8 && (e.memberList.all fun n => decide (n ≤ 47)) && within 1 e.spread 1000
        && within 0 e.dwellUp 3600 && within 0 e.dwellDown 3600)),
   (2, !allDifferent e.memberList),
   (3, !(e.memberList.all p.spillable)),
   (4, !((p.memberStations e).all fun n => n == (p.memberStations e).headD 0)),
   (5, e.memberList.any (p.memberBelow c))]

/-- Gang check 6 of a present station (R161): its compensation gang is absent or of another station. -/
def Plan.compChecks (p : Plan) (k : StationId) : List (Nat × Bool) :=
  [(6, match (p.stations.get k).compGang? with
      | none => false
      | some c => !((p.gangs.get c).isPresent && (p.memberStations (p.gangs.get c)).all fun n => n == k.1))]

/-- The checks of a present authority entry (R161). -/
def Plan.authChecks (p : Plan) (n : Fin 16) : List (Nat × Bool) :=
  let e := p.auth.get n
  [(1, !(within 0 e.issuer 63 && within 0 e.base 63 && within 0 e.mask 63)),
   (2, (allFin 16).any fun m => decide (m.1 < n.1) && (p.auth.get m).isPresent && (p.auth.get m).issuer == e.issuer)]

/-- The checks of a present schedule entry (R161). -/
def Plan.schedChecks (p : Plan) (n : Fin 32) : List (Nat × Bool) :=
  let e := p.sched.get n
  [(1, !(e.dayOn || e.hourOn || e.minuteOn)),
   (2, (e.dayOn && !within 1 e.day 366) || (e.hourOn && !within 0 e.hour 23) || (e.minuteOn && !within 0 e.minute 59)
       || !within 0 e.gate 47 || !within 0 e.opening 1000 || !within 0 e.mode 1)]

/-- The first check of a list that refuses. -/
def firstRefusal (checks : List (Nat × Bool)) : Option Nat := (checks.find? fun c => c.2).map fun c => c.1

/-- The first failure of a table: the lowest entry that counts and refuses, with its check number. -/
def tableFault {n : Nat} (table : Nat) (counts : Fin n → Bool) (checks : Fin n → List (Nat × Bool)) :
    Option (Nat × Nat × Nat) :=
  (allFin n).findSome? fun i => if counts i then (firstRefusal (checks i)).map fun c => (table, i.1, c) else none

/-- The walk of R160: the first check that fails, as table, index and check number; none for a valid plan. -/
def Plan.fault (p : Plan) : Option (Nat × Nat × Nat) :=
  (tableFault 1 (fun k => (p.stations.get k).isPresent) p.stationChecks)
    <|> (tableFault 2 (fun _ => true) p.reachChecks)
    <|> (tableFault 3 (fun f => (p.surfaces.get f).isPresent) p.surfaceChecks)
    <|> (tableFault 4 p.bound p.gateChecks)
    <|> (tableFault 5 (fun c => (p.gangs.get c).isPresent) p.gangChecks)
    <|> (tableFault 5 (fun k => (p.stations.get k).isPresent) p.compChecks)
    <|> (tableFault 6 (fun n => (p.auth.get n).isPresent) p.authChecks)
    <|> (tableFault 7 (fun n => (p.sched.get n).isPresent) p.schedChecks)

/-- The plan passes every check (R152, R160). -/
def Plan.valid (p : Plan) : Bool := p.fault.isNone

/-- The gate is a member, in either plan, of a gang whose member list differs between them (R162). -/
def memberOfChanged (old new : Plan) (g : Gate) : Bool :=
  (allFin 8).any fun c => decide (old.membersOf c ≠ new.membersOf c)
    && ((old.membersOf c).contains g || (new.membersOf c).contains g)

/-- The gate's change of plan holds a commit back while its channel is in STEP or DWELL (R162 condition 4). -/
def bindingMoves (old new : Plan) (g : Gate) : Bool :=
  new.bound g && ((old.bound g && decide (old.binding g ≠ new.binding g)) || memberOfChanged old new g)

end Sys2Proof

namespace Sys2Proof.Machine

/-- READ_ENTRY (R155, R156, R173). The open flag of the run and the in-flight flag behind the header, and the armed mark behind an
ACTIVE schedule entry, are each a byte of 1 when set and 0 when clear (log 28). -/
def State.handleReadEntry (s : State) (args : List Byte) : Answer :=
  match args.map BitVec.toNat with
  | [bank, table, index, part] =>
    match planPlace table index part with
    | none => s.deny .badArgument
    | some place =>
      if bank ≤ 1 then
        let plan := if bank = 0 then s.active else s.store.planPending
        let extra := match place with
          | .header => [byteOf s.store.run.isSome.toNat] ++ beBytes 2 (s.store.run.getD 0) ++ [byteOf s.store.writing.toNat]
          | .sched n => if bank = 0 then [byteOf (s.armed.get n).toNat] else []
          | _ => []
        s.grant ([byteOf table, byteOf index, byteOf part] ++ plan.read place ++ extra)
      else s.deny .badArgument
  | _ => s.deny .badArgument

/-- OPEN_LOAD (R157). -/
def State.handleOpenLoad (s : State) (args : List Byte) : Answer :=
  if args.length = 2 ∧ 1 ≤ fieldAt args 0 2 ∧ fieldAt args 0 2 ≤ 1024 then
    match s.store.run with
    | some _ => s.deny .refusedState
    | none => (s.setStore { s.store with run := some (fieldAt args 0 2) }).grant []
  else s.deny .badArgument

/-- The run after one more write (R158): closed when its remaining count reaches 0. -/
def runAfter (n : Nat) : Option Nat := if n ≤ 1 then none else some (n - 1)

/-- WRITE_ENTRY (R158, R173). -/
def State.handleWriteEntry (s : State) (args : List Byte) : Answer :=
  match planPlace (byteAt args 0) (byteAt args 1) (byteAt args 2) with
  | none => s.deny .badArgument
  | some place =>
    if args.length = 3 + place.size then
      match s.store.run with
      | none => s.deny .refusedState
      | some n =>
        (s.setStore { s.store with planPending := s.store.planPending.write place (args.drop 3), run := runAfter n }).grant
          (beBytes 2 (n - 1))
    else s.deny .badArgument

/-- {ABANDON} (R159): the open run closes. -/
def State.handleAbandon (s : State) : Answer :=
  (s.setStore { s.store with run := none }).grant (beBytes 2 (s.store.run.getD 0))

/-- {COPY} (R159): PENDING becomes a copy of ACTIVE; refused while a run is open. -/
def State.handleCopy (s : State) : Answer :=
  match s.store.run with
  | some _ => s.deny .refusedState
  | none => (s.setStore { s.store with planPending := s.store.active }).grant (beBytes 2 0)

/-- {ABANDON, COPY} (R159): carried out whatever the run. -/
def State.handleAbandonCopy (s : State) : Answer :=
  (s.setStore { s.store with run := none, planPending := s.store.active }).grant (beBytes 2 (s.store.run.getD 0))

/-- An INVALID_PLAN answer with the first failure (R160). -/
def State.invalidPlan (s : State) (f : Nat × Nat × Nat) : Answer :=
  { state := s, status := .invalidPlan, results := [byteOf f.1, byteOf f.2.1, byteOf f.2.2] }

/-- {CHECK} (R160). -/
def State.handleCheck (s : State) : Answer :=
  match s.store.run with
  | some _ => s.deny .refusedState
  | none =>
    match s.store.planPending.fault with
    | some f => s.invalidPlan f
    | none => s.grant (beBytes 2 s.store.planPending.number)

/-- The lowest gate that holds a commit back (R162 condition 4). -/
def State.commitBlocker (s : State) : Option Gate :=
  (allFin 48).find? fun g =>
    ((s.chan g).state.isStep || (s.chan g).state.isDwell) && bindingMoves s.active s.store.planPending g

/-- A channel at a commit (R24), from its old and new binding. -/
def Channel.atCommit (c : Channel) (old new : Option Binding) : Channel :=
  match old, new with
  | none, none => c
  | none, some _ => { Channel.resetAs .wait with tag := c.tag }
  | some _, none => { Channel.resetAs .unbound with tag := c.tag }
  | some a, some b =>
    if a = b then c
    else { c with state := .wait, governed := none, source := .none, clamp := .none, silencePending := false }

/-- A channel takes the commit (R24); a trace of a channel whose binding changes ends (R169). -/
def State.commitChannel (s : State) (old : Plan) (g : Gate) : State :=
  if old.binding g = s.active.binding g then s
  else
    let s := (s.setChan g ((s.chan g).atCommit (old.binding g) (s.active.binding g))).leaveWaits g
    if s.traces g then s.endTrace .unbound else s

/-- A gang's members leave its hold and its waiting holder its queue, before the gang ends or starts anew (R92). -/
def State.dissolveGang (s : State) (members : List Gate) (c : GangId) : State :=
  let s := match (s.gang c).holder with
    | some h => s.leaveWaits h
    | none => s
  s.freeMembers members

/-- A gang starts at its reset values with its hold judged, without a notice (R92). -/
def State.startGang (s : State) (c : GangId) : State :=
  let s := s.setGang c (Gang.resetWith (s.members c) false)
  match s.blockers c with
  | b :: _ => s.becomeHeld c b true
  | [] => s

/-- A gang takes the commit (R92), before the scans. -/
def State.commitGang (s : State) (old : Plan) (c : GangId) : State :=
  let was := (old.gangs.get c).isPresent
  let isNow := (s.gangEntry c).isPresent
  if was && isNow then
    if old.membersOf c = s.members c then s
    else (s.dissolveGang (old.membersOf c) c).startGang c
  else if isNow then s.startGang c
  else if was then (s.dissolveGang (old.membersOf c) c).setGang c Gang.absent
  else s

/-- The gangs present, ascending. -/
def Plan.gangList (p : Plan) : List GangId := (allFin 8).filter fun c => (p.gangs.get c).isPresent

/-- Every block takes the new ACTIVE plan (R163), in the order the rule lists them; within a block the stations (R124),
reaches and gangs follow their numbers. The COMMIT is one event: the channels that begin to wait in any block's part of
it stand in the order of their gate numbers (log 19). -/
def State.takePlan (s : State) (old : Plan) : State :=
  let s := forEach (allFin 48) (fun g s => s.commitChannel old g) s
  let s := s.commitStations old
  let s := forEach (allFin 5) (fun k s => s.commitReach old k) s
  let s := forEach (allFin 8) (fun c s => s.commitGang old c) s
  let s := s.gangReviews .other (Plan.gangList s.active)
  let s := forEach (allFin 6) (fun k s => s.commitSilence old k) s
  { s with armed := Tab.gen fun n => (s.active.sched.get n).isPresent }

/-- A COMMIT that passes R162 is carried out (R163). -/
def State.commitPlan (s : State) : State :=
  let old := s.active
  let new := s.store.planPending
  let s := (s.setStore { s.store with active := new }).takePlan old
  (s.setStore { s.store with planPending := new, retained := { plan := new, agrees := false }, writing := true }).notify
    .planCommitted .none old.number new.number

/-- The reasons of a COMMIT refused REFUSED_STATE (section 12.2). -/
inductive CommitReason where
  | runOpen | writeInFlight | channel
  deriving DecidableEq, Repr

def CommitReason.code : CommitReason → Nat
  | .runOpen => 1
  | .writeInFlight => 2
  | .channel => 3

/-- A COMMIT refused with its reason and gate, 255 for none (section 12.2). -/
def State.denyCommit (s : State) (reason : CommitReason) (gate : Nat) : Answer :=
  { state := s, status := .refusedState, results := [byteOf reason.code, byteOf gate] }

/-- {COMMIT} (R162, R163). -/
def State.handleCommit (s : State) : Answer :=
  if s.store.run.isSome then s.denyCommit .runOpen 255
  else if s.store.writing then s.denyCommit .writeInFlight 255
  else
    match s.store.planPending.fault with
    | some f => s.invalidPlan f
    | none =>
      match s.commitBlocker with
      | some g => s.denyCommit .channel g.1
      | none => s.commitPlan.grant (beBytes 2 s.store.planPending.number)

/-- The retained write ends (R153). With no write in flight there is no completion (log 1). -/
def State.retainedWritten (s : State) : State :=
  if s.store.writing then
    s.setStore { s.store with writing := false, retained := { s.store.retained with agrees := true } }
  else s

end Sys2Proof.Machine
end

