-- ==== Sys2Proof/Machine/Report.lean ====
section
/-! DEFINITION. The Report Unit's requests (chapter 11): snapshots, the trace sampler, the counts, and READ_MARKS (R59), with
the layouts of section 12.3. -/

namespace Sys2Proof.Machine

/-- What a snapshot captures of a station (R166), none for an absent one. -/
def State.snapStation (s : State) (k : StationId) : Option StationSnap :=
  let r := s.station k
  if (s.stationEntry k).isPresent then
    some { stage := r.stage, storage := r.storage, storageValid := r.storageValid, sPred := r.sPred,
           hwLevel := r.hw.level, hwQuality := r.hwQuality, hwStale := r.hw.stale, twLevel := r.tw.level,
           twStale := r.tw.stale, qOut := r.qOut, arrival := r.arrival, planned := s.planned k, qmin := r.qmin,
           qmax := r.qmax, level := (s.silenceOf k).level }
  else none

/-- What a snapshot captures of a channel (R166). -/
def Channel.snap (c : Channel) : ChannelSnap :=
  { state := c.state, source := c.source, measured := c.measured, stale := c.stale, governed := c.governed,
    start := c.start, clamp := c.clamp }

/-- What a snapshot captures of a reach (R74, R166), none for an absent one. -/
def State.snapReach (s : State) (k : ReachId) : Option ReachSnap :=
  let r := s.reach k
  if (s.reachEntry k).isPresent then
    some { parcels := r.line.length, volume := lineVolume r.line, nextArrival := nextArrival r.line,
           unseeded := r.unseeded }
  else none

/-- The capture of the part as it stands (R166). -/
def State.capture (s : State) : Snapshot :=
  { year := s.clock.year, time := s.now, stations := Tab.gen s.snapStation, channels := Tab.gen fun g => (s.chan g).snap,
    reaches := Tab.gen s.snapReach }

/-- The capture time in 5 bytes (section 12.2). -/
def Snapshot.timeBytes (m : Snapshot) : List Byte := byteOf m.year :: m.time.bytes

/-- SNAPSHOT (R166). -/
def State.handleSnapshot (s : State) (args : List Byte) : Answer :=
  if args = [] then (s.setReport { s.report with snapshot := some s.capture }).grant s.capture.timeBytes
  else s.deny .badArgument

/-- An opening of 10 bits, 1023 for absent (section 12.3). -/
def openingBits (o : Option Nat) : Nat := o.getD 1023

/-- The quality code of a snapshot (section 12.3). -/
def qualityBits : Option Quality → Nat
  | none => 0
  | some .good => 1
  | some .suspect => 2

/-- The bytes of an optional value of `n` bytes; an absent one shows `free` bytes (log 14). -/
def optionalBytes (n : Nat) (v : Option Nat) (free : List Byte) : List Byte :=
  match v with
  | some k => beBytes n k
  | none => free

/-- A station record of page 0, 29 bytes (section 12.3); `free j n` are the free bytes from place `j` (log 14). -/
def stationRecord (r : Option StationSnap) (free : Nat → Nat → List Byte) : List Byte :=
  match r with
  | none => ((free 0 1).map fun b => b &&& 0x7F#8) ++ free 1 28
  | some r =>
    [byteOf (128 + r.stage.code * 32 + r.level.code * 8 + r.storageValid.toNat * 4 + r.hwStale.toNat * 2 + r.twStale.toNat),
     byteOf (qualityBits r.hwQuality + r.hwLevel.isSome.toNat * 4 + r.twLevel.isSome.toNat * 8
       + r.sPred.isSome.toNat * 16)]
    ++ beBytes 4 r.storage ++ optionalBytes 4 r.sPred (free 6 4) ++ optionalBytes 2 r.hwLevel (free 10 2)
    ++ optionalBytes 2 r.twLevel (free 12 2) ++ beBytes 3 r.qOut ++ beBytes 3 r.arrival ++ beBytes 3 r.planned
    ++ beBytes 3 r.qmin ++ beBytes 3 r.qmax

/-- A channel record of part 0 of the gate pages, 40 bits (section 12.3). -/
def channelRecord (c : ChannelSnap) : List Byte :=
  beBytes 5 ((((((c.state.code * 4 + c.state.causeCode) * 8 + c.source.code) * 2 + c.stale.toNat) * 1024
    + openingBits c.measured) * 1024 + openingBits c.governed) * 1024 + openingBits c.state.stepTarget)

/-- A channel record of part 1 of the gate pages, 16 bits (section 12.3). -/
def channelRecord2 (c : ChannelSnap) : List Byte := beBytes 2 (c.clamp.code * 8192 + openingBits c.start)

/-- A reach record of page 7, 9 bytes (section 12.3); an absent one shows a parcel count of 0 (log 14). -/
def reachRecord (r : Option ReachSnap) (free : List Byte) : List Byte :=
  match r with
  | none => ((free.take 1).map fun b => b &&& 0x80#8) ++ free.drop 1
  | some r => byteOf (r.unseeded.toNat * 128 + r.parcels) :: (beBytes 5 r.volume ++ beBytes 3 r.nextArrival)

/-- The eight channels of a gate page, 1..6 (R167). -/
def Snapshot.pageChannels (m : Snapshot) (page : Nat) : List ChannelSnap := (m.channels.list.drop (8 * (page - 1))).take 8

/-- The records of a page and part, none outside those that exist (section 12.3). -/
def Snapshot.records (m : Snapshot) (page part : Nat) (free : Nat → Nat → List Byte) : Option (List Byte) :=
  if page = 0 then (toFin? 6 part).map fun k => stationRecord (m.stations.get k) free
  else if page ≤ 6 then
    match part with
    | 0 => some ((m.pageChannels page).map channelRecord).flatten
    | 1 => some ((m.pageChannels page).map channelRecord2).flatten
    | _ => none
  else if page = 7 ∧ part = 0 then
    some ((allFin 5).map fun k => reachRecord (m.reaches.get k) (free (9 * k.1) 9)).flatten
  else none

/-- The page and part exist (R167, section 12.3). -/
def pageExists (page part : Nat) : Bool :=
  (page == 0 && decide (part ≤ 5)) || (decide (1 ≤ page) && decide (page ≤ 6) && decide (part ≤ 1))
    || (page == 7 && part == 0)

/-- READ_SNAPSHOT (R167). -/
def State.handleReadSnapshot (s : State) (args : List Byte) : Answer :=
  match args with
  | [sel] =>
    let page := sel.toNat / 16
    let part := sel.toNat % 16
    if pageExists page part then
      match s.report.snapshot with
      | none => s.deny .refusedState
      | some m => s.useFree.grant (sel :: m.timeBytes ++ (m.records page part s.freeBytes).getD [])
    else s.deny .badArgument
  | _ => s.deny .badArgument

/-- SET_SAMPLER (R168). -/
def State.handleSetSampler (s : State) (args : List Byte) : Answer :=
  if args.length = 2 then
    (s.setSampler { s.report.sampler with
      interval := fieldAt args 0 2, countdown := fieldAt args 0 2, tagged := none }).grant []
  else s.deny .badArgument

/-- The trace record in its 30 bytes (section 12.3). -/
def TraceRecord.bytes (r : TraceRecord) : List Byte :=
  [byteOf r.trace.issuer, byteOf r.trace.gate.1] ++ beBytes 2 r.trace.opening ++ beBytes 2 r.trace.governed
    ++ [byteOf r.trace.clamp.code] ++ beBytes 3 r.trace.qmin ++ beBytes 3 r.trace.qmax ++ beBytes 3 r.trace.planned
    ++ r.trace.admitted.bytes
    ++ (match r.trace.enqueued with
        | some t => t.bytes
        | none => [0xFF#8, 0xFF#8, 0xFF#8, 0xFF#8])
    ++ r.ended.bytes ++ [byteOf r.cause.code, byteOf r.endState]

/-- The countdown after READ_TRACE (R170): the interval less the clock's second counter modulo 8, at least 1. -/
def reloadedCountdown (interval second : Nat) : Nat := max 1 (interval - second % 8)

/-- READ_TRACE (R170). -/
def State.handleReadTrace (s : State) (args : List Byte) : Answer :=
  if args = [] then
    match s.report.sampler.record with
    | none => s.deny .refusedState
    | some r =>
      let m := s.report.sampler
      (s.setSampler { m with
        record := none
        countdown := if 0 < m.interval then reloadedCountdown m.interval s.clock.second else m.countdown }).grant r.bytes
  else s.deny .badArgument

/-- A port's counts in 12 bytes (section 12.3). -/
def PortCounts.bytes (c : PortCounts) : List Byte := beBytes 4 c.received ++ beBytes 4 c.damaged ++ beBytes 4 c.dropped

/-- The reject counts in 24 bytes, in the order of R98. -/
def RejectCounts.bytes (c : RejectCounts) : List Byte :=
  beBytes 4 c.unknownIssuer ++ beBytes 4 c.noRight ++ beBytes 4 c.outOfWindow ++ beBytes 4 c.gateUnbound
    ++ beBytes 4 c.gateUnavailable ++ beBytes 4 c.stationAbsent

/-- READ_COUNTS (R171). -/
def State.handleReadCounts (s : State) (args : List Byte) : Answer :=
  match oneByte args with
  | some 0 => s.grant (s.portD.counts.bytes ++ s.portF.counts.bytes ++ s.rejects.bytes)
  | some 1 =>
    s.grant ((allFin 5).map fun k => beBytes 4 (if (s.reachEntry k).isPresent then (s.reach k).coarse else 0)).flatten
  | _ => s.deny .badArgument

/-- A mark in the reply to READ_MARKS, 7 bytes (section 12.2); without a capture its time, level and direction are free
(log 14). -/
def markBytes (e : MarkEntry) (m : MarkRec) (free : List Byte) : List Byte :=
  let marks := e.isPresent.toNat + m.capture.isSome.toNat * 2 + m.unread.toNat * 8 + m.overwrite.toNat * 16
  match m.capture with
  | some c => byteOf (marks + c.rising.toNat * 4) :: (c.time.bytes ++ beBytes 2 c.level)
  | none => ((free.take 1).map fun b => byteOf marks ||| (b &&& 4#8)) ++ free.drop 1

/-- READ_MARKS (R59). -/
def State.handleReadMarks (s : State) (args : List Byte) : Answer :=
  match (oneByte args).bind (toFin? 6) with
  | none => s.deny .badArgument
  | some k =>
    let e := s.stationEntry k
    let r := s.station k
    if e.isPresent then
      ((s.setStation k { r with mark0 := { r.mark0 with unread := false, overwrite := false },
                                mark1 := { r.mark1 with unread := false, overwrite := false } }).useFree).grant
        (markBytes e.mark0 r.mark0 (s.freeBytes 0 7) ++ markBytes e.mark1 r.mark1 (s.freeBytes 7 7))
    else s.deny .refusedState

end Sys2Proof.Machine
end

