-- ==== Sys2Proof/Machine/Resets.lean ====
section
/-! DEFINITION. The resets (R150, R153, R164, R165): what a power-on reset, an external reset and a RESTART leave. -/

namespace Sys2Proof.Machine

/-- The kinds of reset (R165). -/
inductive ResetKind where
  | powerOn | external | request
  deriving DecidableEq, Repr

def ResetKind.code : ResetKind → Nat
  | .powerOn => 0
  | .external => 1
  | .request => 2

/-- The node number read from the straps (R140): none for 255. -/
def nodeFromStraps (straps : Byte) : Option Byte := if straps = 0xFF#8 then none else some straps

/-- The plan a reset restores (R153): the retained copy when its check value agrees, the empty plan otherwise. -/
def PlanStore.restored (p : PlanStore) : Plan := if p.retained.agrees then p.retained.plan else Plan.empty

/-- The Plan Store after a reset (R151, R153). -/
def PlanStore.afterReset (p : PlanStore) : PlanStore :=
  { active := p.restored, planPending := Plan.empty, run := none, retained := p.retained, writing := false }

/-- A channel after a reset (R3). -/
def channelReset (p : Plan) (g : Gate) : Channel := Channel.resetAs (if p.bound g then .wait else .unbound)

/-- A reach after a reset (R64). -/
def reachReset (e : ReachEntry) : Reach := if e.isPresent then Reach.resetWith e.tau else Reach.absent

/-- A gang after a reset (R77): its members are in WAIT, so its hold flag is set. -/
def gangReset (p : Plan) (c : GangId) : Gang :=
  if (p.gangs.get c).isPresent then Gang.resetWith (p.membersOf c) true else Gang.absent

/-- Every block's reset values with the plan restored (R150), before the notices. The clock, the prescaler, minute's work
still owed, the pins and the queue of commands are kept. -/
def State.blocksReset (s : State) : State :=
  let p := s.store.restored
  { s with
    node := nodeFromStraps s.straps
    portF := PortF.reset
    portD := PortD.reset
    inbox := []
    told := false
    chans := Tab.gen (channelReset p)
    stations := Tab.gen fun k => Station.resetFor (p.stations.get k)
    silence := Tab.gen fun k => silenceReset (p.stations.get k)
    reaches := Tab.gen fun k => reachReset (p.reaches.get k)
    gangs := Tab.gen (gangReset p)
    rejects := RejectCounts.zero
    armed := Tab.gen fun n => (p.sched.get n).isPresent
    store := s.store.afterReset
    report := Report.reset }

/-- A reset with its notices (R165): RESTARTED first, then PLAN_LOST when the retained copy failed its check, which has no
subject (log 20). -/
def State.resetAll (s : State) (kind : ResetKind) : State :=
  let t := s.blocksReset.notify .restarted .none kind.code s.store.restored.number
  if s.store.retained.agrees then t else t.notify .planLost .none 0 0

end Sys2Proof.Machine
end

