-- ==== Sys2Proof/Machine/Management.lean ====
section
/-! DEFINITION. The Management Responder: the inbox (R149), the judging of every request (R154), the requests on a single
gate, and the commands that take a request from the inbox. -/

namespace Sys2Proof.Machine

/-- RESUME_GATE (R22). -/
def State.handleResumeGate (s : State) (args : List Byte) : Answer :=
  match (oneByte args).bind (toFin? 48) with
  | none => s.deny .badArgument
  | some g =>
    if (s.chan g).state = .hold .stall then ((s.enter g .idle).chanEvent .other g).grant []
    else s.deny .refusedState

/-- A channel takes a forced target and enters IDLE (R23); a trace it carried is superseded (R169). -/
def State.force (s : State) (g : Gate) (opening : Nat) : State :=
  let mark : ClampMark := if Config.fullOpening < opening then .range else .none
  let s := s.setChan g { s.chan g with
    governed := some (min opening Config.fullOpening), source := .force, clamp := mark, silencePending := false }
  let s := s.enter g .idle
  let s := if s.traces g then s.endTrace .superseded else s
  s.chanEvent .request g

/-- FORCE_GATE (R23). -/
def State.handleForceGate (s : State) (args : List Byte) : Answer :=
  if args.length = 3 then
    match toFin? 48 (byteAt args 0) with
    | none => s.deny .badArgument
    | some g =>
      if (s.chan g).state = .hold .stall ∨ (s.chan g).state = .hold .silence then
        (s.force g (fieldAt args 1 2)).grant []
      else s.deny .refusedState
  else s.deny .badArgument

/-- A gate and an out value as SET_MEMBER_OUT carries them (section 12.2). -/
def readMemberOut (args : List Byte) : Option (Gate × Bool) :=
  match args.map BitVec.toNat with
  | [gate, 0] => (toFin? 48 gate).map fun g => (g, false)
  | [gate, 1] => (toFin? 48 gate).map fun g => (g, true)
  | _ => none

/-- SET_MEMBER_OUT (R90, R91). -/
def State.handleSetMemberOut (s : State) (args : List Byte) : Answer :=
  match readMemberOut args with
  | none => s.deny .badArgument
  | some (g, value) =>
    match s.active.gangOf g with
    | none => s.deny .refusedState
    | some c =>
      if value && (s.gang c).holder == some g && (s.chan g).state.isStep then s.deny .refusedState
      else if (s.gang c).isOut g = value then s.grant []
      else (s.changeOut c g value).grant []

/-- RESTART (R164): refused while the retained write is in flight. The reset follows the reply (`afterReply`). -/
def State.handleRestart (s : State) (args : List Byte) : Answer :=
  if args = [] then
    if s.store.writing then s.deny .refusedState else s.grant []
  else s.deny .badArgument

/-- A request is carried out or refused by its own rule (R154 steps 2 to 4). -/
def State.handle (s : State) (r : Request) (args : List Byte) : Answer :=
  match r with
  | .badKind => s.deny .badArgument
  | .readEntry => s.handleReadEntry args
  | .openLoad => s.handleOpenLoad args
  | .writeEntry => s.handleWriteEntry args
  | .abandon => s.handleAbandon
  | .copy => s.handleCopy
  | .abandonCopy => s.handleAbandonCopy
  | .check => s.handleCheck
  | .commit => s.handleCommit
  | .setClock => s.handleSetClock args
  | .resumeStation => s.handleResumeStation args
  | .resumeGate => s.handleResumeGate args
  | .forceGate => s.handleForceGate args
  | .setMemberOut => s.handleSetMemberOut args
  | .reseedReach => s.handleReseedReach args
  | .readMarks => s.handleReadMarks args
  | .snapshot => s.handleSnapshot args
  | .readSnapshot => s.handleReadSnapshot args
  | .setSampler => s.handleSetSampler args
  | .readTrace => s.handleReadTrace args
  | .readCounts => s.handleReadCounts args
  | .restart => s.handleRestart args

/-- A request is judged (R154): the MANAGE right first. -/
def State.judgeRequest (s : State) (p : List Byte) : Answer :=
  if s.active.manages (reqIssuer p).toNat then s.handle (readRequest p) (reqArgs p) else s.deny .refusedRights

/-- The reply fills the place reserved for it (R147, R149). -/
def State.placeReply (s : State) (p : List Byte) (status : Status) (results : List Byte) : State :=
  s.setPortD { s.portD with
    reserved := s.portD.reserved - 1
    own := s.portD.own ++ [.reply { issuer := reqIssuer p, kind := reqKind p, tag := reqTag p, status := status,
                                    results := results }] }

/-- A RESTART that was granted resets the part after its reply is placed (R164). -/
def State.afterReply (s : State) (p : List Byte) (status : Status) : State :=
  if readRequest p = .restart ∧ status = .done then s.resetAll .request else s

/-- A request is removed from the inbox and a place of UP_OWN reserved for its reply (R149); the Responder no longer waits for
an event (log 6). -/
def State.reserve (s : State) : State :=
  ({ s with inbox := s.inbox.drop 1, told := false } : State).setPortD { s.portD with reserved := s.portD.reserved + 1 }

/-- A request is taken (R149): judged with its place reserved, answered, and its event ended. -/
def State.respond (s : State) (p : List Byte) : State :=
  let a := s.reserve.judgeRequest p
  ((a.state.placeReply p a.status a.results).afterReply p a.status).finish

/-- The oldest request is a SET_CLOCK that is going to be carried out (R132, R149). -/
def State.setsClock (s : State) (p : List Byte) : Bool :=
  s.ownRoom && s.active.manages (reqIssuer p).toNat && decide (readRequest p = .setClock) && clockArgs (reqArgs p)

/-- Before a SET_CLOCK is taken, the work of a minute that is still owed is taken, since it belongs to the old counters (R132, log
4). The place for the reply is not reserved yet, so the minute's notices come first and the request may have to wait (R149). -/
def State.beforeTaking (s : State) (p : List Byte) : State :=
  if s.setsClock p && s.minuteOwed then
    (s.takeEach (fun s f => (f s.onLines).finish) (minuteEvents .whole)).onLines
  else s

/-- Between two requests the transmissions that the earlier one made due begin (R145, R148, log 5). -/
def State.betweenRequests (s : State) : State := if s.inbox.isEmpty then s else s.onLines

/-- The Responder takes the oldest request while UP_OWN has room and the inbox holds one (R149), `n` at most. -/
def State.serve : Nat → State → State
  | 0, s => s
  | n + 1, s =>
    match s.inbox with
    | [] => s
    | p :: _ =>
      let t := s.beforeTaking p
      if t.ownRoom then State.serve n (t.respond p).betweenRequests else t

/-- The oldest request is taken when it is of the command's row and UP_OWN has room, and the Responder goes on with those
behind it (R149, log 7). -/
def State.serveRow (s : State) (row : Request → Bool) : State :=
  match s.inbox with
  | [] => s
  | p :: ps => if row (readRequest p) then State.serve (ps.length + 1) s else s

/-- A MGMT_REQ for the part's node (R149, R172): dropped without payload or with a full inbox, else it enters the inbox,
and the Responder takes what it can. -/
def State.takeRequestFrame (s : State) (payload : List Byte) : State :=
  if payload = [] ∨ Config.inboxCap ≤ s.inbox.length then s.countD PortCounts.addDropped
  else State.serve (s.inbox.length + 1) { s with inbox := s.inbox ++ [payload] }

/-- A MGMT_REQ (R141, R149): for another node the frame is placed in ROUTINE. -/
def State.receiveRequest (s : State) (dest : Byte) (payload : List Byte) : State :=
  let frame : LineFrame := { dest := dest, typ := typMgmtReq, payload := payload }
  if !payloadFits payload then s.countD PortCounts.addDamaged
  else if s.forNode frame then (s.countD PortCounts.addReceived).takeRequestFrame payload
  else (s.countD PortCounts.addReceived).passToField frame

/-- The Responder that waits behind the next event takes what it can now (R149, log 6). -/
def State.hear (s : State) : State :=
  if s.told then State.serve s.inbox.length { s with told := false } else s

/-- Port D begins a frame (R148); a place it frees in UP_OWN goes to the Responder at once, or behind the next event when that
event hands on a notice (R147, R149, log 6). -/
def State.beginAndTell (s : State) (first : FirstTaker) : State :=
  let t := s.beginD
  if t.portD.own.length < s.portD.own.length then
    match first with
    | .responder => State.serve t.inbox.length { t with told := false }
    | .nextEvent => { t with told := !t.inbox.isEmpty }
  else t

/-- A transmission due on port D begins, as an event of its own (R148). -/
def State.beginsD (s : State) : State := if s.dueD then (s.beginAndTell .responder).finish else s

/-- Every transmission that is due has begun (R145, R148; log 5): port D's, that of the RESTARTED notice when the Responder
took a RESTART at the first one, and port F's. -/
def State.begun (s : State) : State := s.beginsD.beginsD.beginsF

/-- The own frame is a notice. -/
def OwnFrame.isNotice : OwnFrame → Bool
  | .notice _ => true
  | .reply _ => false

/-- The number of notices in UP_OWN. -/
def State.noticeCount (s : State) : Nat := s.portD.own.countP OwnFrame.isNotice

/-- An event, ended (R144, R169). A Responder that was told of room takes what it can behind the event when the event hands on a
notice, which so takes the place first, and before it otherwise (R149, log 6). No such event takes a request itself, so its notices
are its own. -/
def State.takeEvent (s : State) (f : State → State) : State :=
  if s.told then
    let t := (f { s with told := false }).finish
    if s.noticeCount < t.noticeCount then State.serve t.inbox.length t else (f s.hear.begun).finish
  else (f s).finish

/-- An event in its place: the transmissions due begin before it (log 5). -/
def State.runEvent (s : State) (f : State → State) : State := s.begun.takeEvent f

/-- One of the events that a command takes one after another, in its place: a Responder that was told of room takes what it can
behind the first of them that hands on a notice (R149, log 6). -/
def State.runWaiting (s : State) (f : State → State) : State :=
  let b := s.begun
  let t := (f b).finish
  if b.told && decide (b.noticeCount < t.noticeCount) then State.serve t.inbox.length { t with told := false } else t

/-- A command that takes those of the events that are due. A Responder that was told of room takes what it can behind the first of
them that hands on a notice, and before them all when none does (R149, log 6). -/
def State.takeAll (s : State) (es : List DueEvent) : State :=
  let t := s.takeEach State.runWaiting es
  if s.told && t.told && es.any s.isDue then s.hear.begun.takeEach State.runWaiting es else t

/-- A command that is one event. -/
def State.event (s : State) (f : State → State) : Host.Outcome State Fault Refusal := .next (s.runEvent f)

/-- The arrival of a MGMT_REQ. It hands on no notice, those of the requests that the Responder then takes being theirs, so a Responder
that was told of room takes what it can before it (R149, log 6). -/
def State.arrival (s : State) (f : State → State) : Host.Outcome State Fault Refusal := .next (f s.begun.hear.begun).finish

/-- The command of a request's row: the Responder's own taking (R149, log 7). -/
def State.row (s : State) (row : Request → Bool) : Host.Outcome State Fault Refusal := done (s.begun.serveRow row)

end Sys2Proof.Machine
end

