-- ==== Sys2Proof/Machine/Setpoints.lean ====
section
/-! DEFINITION. The frames dispatch sends to the Admission Unit: SETPOINT, KEEPALIVE and INFLOW (chapter 6), with the sampler
step of R168 and R169. -/

namespace Sys2Proof.Machine

/-- The first check of R103 that fails, none when the frame is admitted. -/
def State.setpointFault (s : State) (f : SetpointFields) (g : Gate) : Option RejectCause :=
  match s.authorityFault f.issuer f.override with
  | some c => some c
  | none =>
    if !s.inIssuerWindow f.issuer f.gate then some .outOfWindow
    else if !s.active.bound g then some .gateUnbound
    else if !(s.chan g).state.takes then some .gateUnavailable
    else none

/-- The sampler counts an admitted SETPOINT down or tags it (R168, R169). `window` is the window as the clamp read it,
`enqueued` whether the request's own event has already placed an increment of the channel (log 9). -/
def State.sample (s : State) (k : StationId) (g : Gate) (f : SetpointFields) (target : Nat) (mark : ClampMark)
    (window : Nat × Nat) (enqueued : Bool) : State :=
  let m := s.report.sampler
  if m.interval = 0 ∨ m.tagged.isSome ∨ m.record.isSome then s
  else if 0 < m.countdown then s.setSampler { m with countdown := m.countdown - 1 }
  else
    let trace : Trace :=
      { issuer := f.issuer, gate := g, opening := f.opening, governed := target, clamp := mark, qmin := window.1,
        qmax := window.2, planned := s.planned k, admitted := s.now, enqueued := if enqueued then some s.now else none }
    s.setSampler { m with tagged := some trace }

/-- The governed target and clamp mark of an admitted SETPOINT (R105, R108, R110). -/
def State.setpointTarget (s : State) (k : StationId) (g : Gate) (f : SetpointFields) : Nat × ClampMark :=
  let ranged := decide (Config.fullOpening < f.opening)
  let r := min f.opening Config.fullOpening
  if f.override then (r, if ranged then .range else .none) else s.windowClamp k g r ranged

/-- An admitted SETPOINT is handed on (R111): channel, silence, sampler, notice. -/
def State.admitSetpoint (s : State) (k : StationId) (g : Gate) (f : SetpointFields) : State :=
  let (target, mark) := s.setpointTarget k g f
  let window := ((s.station k).qmin, (s.station k).qmax)
  let tag := (s.chan g).tag
  let s := s.takeRequest g target .dispatch mark
  let s := s.activity k
  let s := s.sample k g f target mark window (decide ((s.chan g).tag ≠ tag))
  s.notifyClamp g mark .dispatch f.opening target

/-- A SETPOINT for a gate of 0..47 is judged (R103). -/
def State.judgeSetpoint (s : State) (g : Gate) (f : SetpointFields) : State :=
  match s.setpointFault f g, (s.gateEntry g).station? with
  | some cause, _ => s.reject .setpoint f.issuer f.gate cause (packValue f.tag f.opening)
  | none, some k => s.admitSetpoint k g f
  | none, none => s

/-- A SETPOINT of the right length on port D (R102, R103, R172). -/
def State.takeSetpoint (s : State) (frame : LineFrame) : State :=
  let f := readSetpoint frame.payload
  if 63 < f.gate then s.countD PortCounts.addDamaged
  else
    match toFin? 48 f.gate with
    | none => s.passToField frame
    | some g => s.judgeSetpoint g f

/-- A SETPOINT (R102, R103, R141); one of the wrong length is damaged. -/
def State.receiveSetpoint (s : State) (dest : Byte) (payload : List Byte) : State :=
  if !payloadFits payload then s.countD PortCounts.addDamaged
  else if payload.length = setpointLen then
    (s.countD PortCounts.addReceived).takeSetpoint { dest := dest, typ := typSetpoint, payload := payload }
  else (s.countD PortCounts.addReceived).countD PortCounts.addDamaged

/-- The judging of a KEEPALIVE or an INFLOW (R100, R112): the station admitted, or the cause of rejection. -/
def State.judgeForStation (s : State) (issuer station : Nat) : Except RejectCause StationId :=
  match s.authorityFault issuer false with
  | some c => .error c
  | none =>
    match toFin? 6 station with
    | none => .error .stationAbsent
    | some k => if (s.stationEntry k).isPresent then .ok k else .error .stationAbsent

/-- A KEEPALIVE of the right length (R112). -/
def State.takeKeepalive (s : State) (issuer station : Nat) : State :=
  match s.judgeForStation issuer station with
  | .error c => s.reject .keepalive issuer station c 0
  | .ok k => s.activity k

/-- A KEEPALIVE (R112, R141); one of the wrong length is damaged. -/
def State.receiveKeepalive (s : State) (payload : List Byte) : State :=
  if !payloadFits payload then s.countD PortCounts.addDamaged
  else if payload.length = keepaliveLen then
    (s.countD PortCounts.addReceived).takeKeepalive (byteAt payload 0) (byteAt payload 1)
  else (s.countD PortCounts.addReceived).countD PortCounts.addDamaged

/-- An INFLOW of the right length (R113, R55). -/
def State.takeInflow (s : State) (issuer station flow : Nat) : State :=
  match s.judgeForStation issuer station with
  | .error c => s.reject .inflow issuer station c flow
  | .ok k => s.setStation k { s.station k with qLocal := flow }

/-- An INFLOW (R113, R141); one of the wrong length is damaged. -/
def State.receiveInflow (s : State) (payload : List Byte) : State :=
  if !payloadFits payload then s.countD PortCounts.addDamaged
  else if payload.length = inflowLen then
    (s.countD PortCounts.addReceived).takeInflow (byteAt payload 0) (byteAt payload 1) (fieldAt payload 2 3)
  else (s.countD PortCounts.addReceived).countD PortCounts.addDamaged

end Sys2Proof.Machine
end

