-- ==== Sys2Proof/Machine/Commands.lean ====
section
/-! DEFINITION. The meaning of every command, one definition each, over the events of the blocks. -/

namespace Sys2Proof.Machine

/-- POWER_ON_RESET (R150, R128, R129) with the strap levels given. -/
def execPowerOnReset (straps : Byte) (s : State) : Host.Outcome State Fault Refusal :=
  done (({ s with straps := straps, clock := Clock.powerOn, prescaler := 0, minuteDue := MinuteDue.none } : State).resetAll
    .powerOn)
/-- EXTERNAL_RESET (R150) with the strap levels given: the clock and the prescaler run on. -/
def execExternalReset (straps : Byte) (s : State) : Host.Outcome State Fault Refusal :=
  done (({ s with straps := straps } : State).resetAll .external)
/-- FIELD_READY_ASSERTED (R145): the free transmitter begins next (log 5). -/
def execFieldReadyAsserted (s : State) : Host.Outcome State Fault Refusal := s.event fun s => { s with fieldReady := true }
/-- FIELD_READY_DEASSERTED (R145): a frame being sent goes on to its end. -/
def execFieldReadyDeasserted (s : State) : Host.Outcome State Fault Refusal :=
  s.event fun s => { s with fieldReady := false }
/-- SECOND_TICK (R128 to R131), behind the expiries and the minute's work left over from before (log 3). -/
def execSecondTick (s : State) : Host.Outcome State Fault Refusal :=
  (s.begun.takeAll (expiries ++ minuteEvents .whole)).event fun s => s.tick
/-- MODEL_MINUTE (R131): the events of the part named that are still owed (log 4). -/
def execModelMinute (part : MinutePart) (s : State) : Host.Outcome State Fault Refusal :=
  done (s.begun.takeAll (minuteEvents part))
/-- POSITION_STALE (R9). -/
def execPositionStale (g : Gate) (s : State) : Host.Outcome State Fault Refusal := s.event fun s => s.positionGoesStale g
/-- STEP_TIMEOUT (R15). -/
def execStepTimeout (g : Gate) (s : State) : Host.Outcome State Fault Refusal := s.event fun s => s.stepTimesOut g
/-- DWELL_EXPIRY (R16). -/
def execDwellExpiry (g : Gate) (s : State) : Host.Outcome State Fault Refusal := s.event fun s => s.dwellExpires g
/-- GANG_DWELL_EXPIRY (R84). A gang dwell that is not at its end has no expiry (log 1). -/
def execGangDwellExpiry (c : GangId) (s : State) : Host.Outcome State Fault Refusal := s.event fun s => s.gangDwellExpires c
/-- GAUGE_STALE (R45). -/
def execGaugeStale (k : StationId) (role : GaugeRole) (s : State) : Host.Outcome State Fault Refusal :=
  s.event fun s => s.gaugeGoesStale k role
/-- FIRST_SILENCE_EXPIRY (R120). -/
def execFirstSilenceExpiry (k : StationId) (s : State) : Host.Outcome State Fault Refusal := s.event fun s => s.firstSilence k
/-- SECOND_SILENCE_EXPIRY (R121). -/
def execSecondSilenceExpiry (k : StationId) (s : State) : Host.Outcome State Fault Refusal :=
  s.event fun s => s.secondSilence k
/-- RETAINED_WRITE_COMPLETE (R153). -/
def execRetainedWriteComplete (s : State) : Host.Outcome State Fault Refusal := s.event fun s => s.retainedWritten
/-- DAMAGED_FRAME (R139). -/
def execDamagedFrame (port : Port) (bytes : List Byte) (endMarked : Bool) (s : State) : Host.Outcome State Fault Refusal :=
  s.event fun s => s.receiveDamaged port bytes endMarked
/-- SETPOINT (R102, R103, R141). -/
def execSetpoint (dest : Byte) (payload : List Byte) (s : State) : Host.Outcome State Fault Refusal :=
  s.event fun s => s.receiveSetpoint dest payload
/-- KEEPALIVE (R112, R141). The destination is not read. -/
def execKeepalive (_dest : Byte) (payload : List Byte) (s : State) : Host.Outcome State Fault Refusal :=
  s.event fun s => s.receiveKeepalive payload
/-- INFLOW (R113, R141). The destination is not read. -/
def execInflow (_dest : Byte) (payload : List Byte) (s : State) : Host.Outcome State Fault Refusal :=
  s.event fun s => s.receiveInflow payload
/-- MGMT_REQ (R141, R149). -/
def execMgmtReq (dest : Byte) (payload : List Byte) (s : State) : Host.Outcome State Fault Refusal :=
  s.arrival fun s => s.receiveRequest dest payload
/-- DISPATCH_FRAME_PASS (R141). -/
def execDispatchFramePass (f : LineFrame) (s : State) : Host.Outcome State Fault Refusal := s.event fun s => s.receivePass f
/-- POSITION (R4, R142). -/
def execPosition (dest : Byte) (payload : List Byte) (s : State) : Host.Outcome State Fault Refusal :=
  s.event fun s => s.receivePosition dest payload
/-- GAUGE (R42, R142). -/
def execGauge (dest : Byte) (payload : List Byte) (s : State) : Host.Outcome State Fault Refusal :=
  s.event fun s => s.receiveGauge dest payload
/-- FIELD_FRAME_FORWARD (R142). -/
def execFieldFrameForward (f : LineFrame) (s : State) : Host.Outcome State Fault Refusal :=
  s.event fun s => s.receiveForward f
/-- INCREMENT_START (R11, R13): the channel judges, and starts its increment when it is in IDLE, has work, the turn and room
in its queue. The command may come at any time, also when none of R11's events has just come (log 26). -/
def execIncrementStart (g : Gate) (s : State) : Host.Outcome State Fault Refusal := s.event fun s => s.judge g
/-- PORT_F_TX_BEGIN (R144 to R146). A Responder that was told of room takes what it can behind it: the begin was due before
(log 6). -/
def execPortFTxBegin (claim : Claim) (s : State) : Host.Outcome State Fault Refusal := .next (s.beginF claim).finish.hear
/-- PORT_F_TX_END (R145): the free transmitter begins next (log 5). -/
def execPortFTxEnd (s : State) : Host.Outcome State Fault Refusal :=
  s.event fun s => s.setPortF { s.portF with sending := none }
/-- PORT_D_TX_BEGIN (R147 to R149). -/
def execPortDTxBegin (first : FirstTaker) (s : State) : Host.Outcome State Fault Refusal := done (s.beginAndTell first)
/-- PORT_D_TX_END (R148): the free transmitter begins next (log 5). -/
def execPortDTxEnd (s : State) : Host.Outcome State Fault Refusal :=
  s.event fun s => s.setPortD { s.portD with sending := none }
/-- MGMT_BAD_KIND (R154): a request of no kind. -/
def execMgmtBadKind (s : State) : Host.Outcome State Fault Refusal :=
  s.row fun r => r == .badKind
/-- READ_ENTRY (R155). -/
def execReadEntry (s : State) : Host.Outcome State Fault Refusal :=
  s.row fun r => r == .readEntry
/-- OPEN_LOAD (R157). -/
def execOpenLoad (s : State) : Host.Outcome State Fault Refusal :=
  s.row fun r => r == .openLoad
/-- WRITE_ENTRY (R158). -/
def execWriteEntry (s : State) : Host.Outcome State Fault Refusal :=
  s.row fun r => r == .writeEntry
/-- ABANDON (R159), alone or with COPY (log 7). -/
def execAbandon (s : State) : Host.Outcome State Fault Refusal :=
  s.row fun r => r == .abandon || r == .abandonCopy
/-- COPY (R159), alone or with ABANDON (log 7). -/
def execCopy (s : State) : Host.Outcome State Fault Refusal :=
  s.row fun r => r == .copy || r == .abandonCopy
/-- CHECK (R160). -/
def execCheck (s : State) : Host.Outcome State Fault Refusal :=
  s.row fun r => r == .check
/-- COMMIT (R162, R163). -/
def execCommit (s : State) : Host.Outcome State Fault Refusal :=
  s.row fun r => r == .commit
/-- SET_CLOCK (R132). -/
def execSetClock (s : State) : Host.Outcome State Fault Refusal :=
  s.row fun r => r == .setClock
/-- RESUME_STATION (R123). -/
def execResumeStation (s : State) : Host.Outcome State Fault Refusal :=
  s.row fun r => r == .resumeStation
/-- RESUME_GATE (R22). -/
def execResumeGate (s : State) : Host.Outcome State Fault Refusal :=
  s.row fun r => r == .resumeGate
/-- FORCE_GATE (R23). -/
def execForceGate (s : State) : Host.Outcome State Fault Refusal :=
  s.row fun r => r == .forceGate
/-- SET_MEMBER_OUT (R90). -/
def execSetMemberOut (s : State) : Host.Outcome State Fault Refusal :=
  s.row fun r => r == .setMemberOut
/-- RESEED_REACH (R71). -/
def execReseedReach (s : State) : Host.Outcome State Fault Refusal :=
  s.row fun r => r == .reseedReach
/-- READ_MARKS (R59). -/
def execReadMarks (s : State) : Host.Outcome State Fault Refusal :=
  s.row fun r => r == .readMarks
/-- SNAPSHOT (R166). -/
def execSnapshot (s : State) : Host.Outcome State Fault Refusal :=
  s.row fun r => r == .snapshot
/-- READ_SNAPSHOT (R167). -/
def execReadSnapshot (s : State) : Host.Outcome State Fault Refusal :=
  s.row fun r => r == .readSnapshot
/-- SET_SAMPLER (R168). -/
def execSetSampler (s : State) : Host.Outcome State Fault Refusal :=
  s.row fun r => r == .setSampler
/-- READ_TRACE (R170). -/
def execReadTrace (s : State) : Host.Outcome State Fault Refusal :=
  s.row fun r => r == .readTrace
/-- READ_COUNTS (R171). -/
def execReadCounts (s : State) : Host.Outcome State Fault Refusal :=
  s.row fun r => r == .readCounts
/-- RESTART (R164). -/
def execRestart (s : State) : Host.Outcome State Fault Refusal :=
  s.row fun r => r == .restart

end Sys2Proof.Machine
end

