-- ==== Sys2Proof/Machine/Dispatch.lean ====
section
/-! DEFINITION. The effect of every command on everything but the queue: one arm per constructor of Instr. -/

namespace Sys2Proof.Machine

def exec (i : Instr) (s : State) : Host.Outcome State Fault Refusal :=
  match i with
  | .powerOnReset straps => Sys2Proof.Machine.execPowerOnReset straps s
  | .externalReset straps => Sys2Proof.Machine.execExternalReset straps s
  | .fieldReadyAsserted => Sys2Proof.Machine.execFieldReadyAsserted s
  | .fieldReadyDeasserted => Sys2Proof.Machine.execFieldReadyDeasserted s
  | .secondTick => Sys2Proof.Machine.execSecondTick s
  | .modelMinute part => Sys2Proof.Machine.execModelMinute part s
  | .positionStale gate => Sys2Proof.Machine.execPositionStale gate s
  | .stepTimeout gate => Sys2Proof.Machine.execStepTimeout gate s
  | .dwellExpiry gate => Sys2Proof.Machine.execDwellExpiry gate s
  | .gangDwellExpiry gang => Sys2Proof.Machine.execGangDwellExpiry gang s
  | .gaugeStale station role => Sys2Proof.Machine.execGaugeStale station role s
  | .firstSilenceExpiry station => Sys2Proof.Machine.execFirstSilenceExpiry station s
  | .secondSilenceExpiry station => Sys2Proof.Machine.execSecondSilenceExpiry station s
  | .retainedWriteComplete => Sys2Proof.Machine.execRetainedWriteComplete s
  | .damagedFrame port bytes endMarked => Sys2Proof.Machine.execDamagedFrame port bytes endMarked s
  | .setpoint dest payload => Sys2Proof.Machine.execSetpoint dest payload s
  | .keepalive dest payload => Sys2Proof.Machine.execKeepalive dest payload s
  | .inflow dest payload => Sys2Proof.Machine.execInflow dest payload s
  | .mgmtReq dest payload => Sys2Proof.Machine.execMgmtReq dest payload s
  | .dispatchFramePass frame => Sys2Proof.Machine.execDispatchFramePass frame s
  | .position dest payload => Sys2Proof.Machine.execPosition dest payload s
  | .gauge dest payload => Sys2Proof.Machine.execGauge dest payload s
  | .fieldFrameForward frame => Sys2Proof.Machine.execFieldFrameForward frame s
  | .incrementStart gate => Sys2Proof.Machine.execIncrementStart gate s
  | .portFTxBegin claim => Sys2Proof.Machine.execPortFTxBegin claim s
  | .portFTxEnd => Sys2Proof.Machine.execPortFTxEnd s
  | .portDTxBegin first => Sys2Proof.Machine.execPortDTxBegin first s
  | .portDTxEnd => Sys2Proof.Machine.execPortDTxEnd s
  | .mgmtBadKind => Sys2Proof.Machine.execMgmtBadKind s
  | .readEntry => Sys2Proof.Machine.execReadEntry s
  | .openLoad => Sys2Proof.Machine.execOpenLoad s
  | .writeEntry => Sys2Proof.Machine.execWriteEntry s
  | .abandon => Sys2Proof.Machine.execAbandon s
  | .copy => Sys2Proof.Machine.execCopy s
  | .check => Sys2Proof.Machine.execCheck s
  | .commit => Sys2Proof.Machine.execCommit s
  | .setClock => Sys2Proof.Machine.execSetClock s
  | .resumeStation => Sys2Proof.Machine.execResumeStation s
  | .resumeGate => Sys2Proof.Machine.execResumeGate s
  | .forceGate => Sys2Proof.Machine.execForceGate s
  | .setMemberOut => Sys2Proof.Machine.execSetMemberOut s
  | .reseedReach => Sys2Proof.Machine.execReseedReach s
  | .readMarks => Sys2Proof.Machine.execReadMarks s
  | .snapshot => Sys2Proof.Machine.execSnapshot s
  | .readSnapshot => Sys2Proof.Machine.execReadSnapshot s
  | .setSampler => Sys2Proof.Machine.execSetSampler s
  | .readTrace => Sys2Proof.Machine.execReadTrace s
  | .readCounts => Sys2Proof.Machine.execReadCounts s
  | .restart => Sys2Proof.Machine.execRestart s

end Sys2Proof.Machine
end

