-- ==== Sys2Proof/Machine/Step.lean ====
section
/-! DEFINITION. A step: the command at the front of the queue, or idling. -/

namespace Sys2Proof.Machine

/-- The state with the front command taken off the queue. -/
def State.withQueue (s : State) (rest : List Instr) : State := { s with pending := rest }

/-- A step takes the command at the front of the queue and answers its outcome; on an empty queue the part idles
(log 2). -/
def step (s : State) : Host.Outcome State Fault Refusal :=
  match s.pending with
  | [] => .next s
  | c :: rest => exec c (s.withQueue rest)

/-- The state with the command a table word spells put at the front of its queue; unchanged where the word spells none
(the table gives no row any bits, so none does). -/
def State.withFetchWord (s : State) (nbits w : Nat) : State :=
  match Sys2Proof.decodeTableWord nbits w with
  | some c => s.withQueue (c :: s.pending)
  | none => s

end Sys2Proof.Machine
end

