-- ==== Sys2Proof/Safety.lean ====
section
/-! DEFINITION. The words the statements use: the parts of the state and what stays the same, a settled state, a request at the
front of the inbox and its answer, what a reset leaves, and the invariants. -/

namespace Sys2Proof.Machine

/-- The parts of the state a frame speaks of. -/
inductive Part where
  | queue | pins | node | portF | portD | inbox | chans | stations | silence | reaches | gangs | rejects | clock
  | minuteDue | armed | store | report | freeCount | told
  deriving DecidableEq, Repr

/-- A part holds the same in both states. -/
def Part.same (s t : State) : Part → Prop
  | .queue => t.pending = s.pending
  | .pins => t.straps = s.straps ∧ t.fieldReady = s.fieldReady
  | .node => t.node = s.node
  | .portF => t.portF = s.portF
  | .portD => t.portD = s.portD
  | .inbox => t.inbox = s.inbox
  | .chans => t.chans = s.chans
  | .stations => t.stations = s.stations
  | .silence => t.silence = s.silence
  | .reaches => t.reaches = s.reaches
  | .gangs => t.gangs = s.gangs
  | .rejects => t.rejects = s.rejects
  | .clock => t.clock = s.clock ∧ t.prescaler = s.prescaler
  | .minuteDue => t.minuteDue = s.minuteDue
  | .armed => t.armed = s.armed
  | .store => t.store = s.store
  | .report => t.report = s.report
  | .freeCount => t.freeCount = s.freeCount
  | .told => t.told = s.told

/-- Every part but those named is unchanged. -/
def SameBut (ps : List Part) (s t : State) : Prop := ∀ p, p ∉ ps → p.same s t

/-- No event is half taken: its end changes nothing more (every command leaves such a state). -/
def State.settled (s : State) : Prop := s.finish = s

/-- The last event is settled and every transmission that was due has begun (log 5). -/
def State.ready (s : State) : Prop := s.settled ∧ s.dueF = false ∧ s.dueD = false

/-- Nothing is left over between two events: the state is ready, and no Responder waits behind the next event (log 6). -/
def State.quiet (s : State) : Prop := s.ready ∧ s.told = false

/-- A notice that UP_OWN has room for enters it at its end, with the gap flag and the plant time, and clears the gap
mark; without room the gap mark is set (R165). -/
def NoticeSent (s t : State) (kind : NoticeKind) (subject : Subject) (detail value : Nat) : Prop :=
  if s.ownRoom then
    t.portD.own = s.portD.own ++ [.notice { kind := kind, subject := subject, time := s.now, detail := detail,
                                            value := value, gap := s.report.gapMark }]
      ∧ t.report.gapMark = false
  else t.portD.own = s.portD.own ∧ t.report.gapMark = true

/-- A notice handed on with UP_OWN having room stands in UP_OWN afterwards, with the gap flag as the gap mark stood
(R165). -/
def Noticed (s t : State) (kind : NoticeKind) (subject : Subject) (detail value : Nat) : Prop :=
  s.ownRoom = true →
    OwnFrame.notice { kind := kind, subject := subject, time := s.now, detail := detail, value := value,
                      gap := s.report.gapMark } ∈ t.portD.own

/-- A command of a frame rejects it (R104): the cause is counted, ADMIT_REJECT is handed on, the received count of port D
rises, and nothing else changes. -/
def Rejects (c : Instr) (s : State) (frame : AdmissionFrame) (issuer target : Nat) (cause : RejectCause) (value : Nat) :
    Prop :=
  ∃ t, exec c s = .next t ∧ t.rejects = s.rejects.add cause
    ∧ NoticeSent s t .admitReject (.issuer issuer) (frame.code * 4096 + cause.code * 256 + target) value
    ∧ t.portD = { s.portD with own := t.portD.own, counts := s.portD.counts.addReceived }
    ∧ t.report = { s.report with gapMark := t.report.gapMark } ∧ SameBut [.portD, .report, .rejects] s t

/-- The one request of the inbox is `p`, UP_OWN has room for its reply, its issuer holds MANAGE (a byte above 63 included: log
32), and it is of the kind given. -/
def State.asks (s : State) (p : List Byte) (r : Request) : Prop :=
  s.inbox = [p] ∧ s.ownRoom = true ∧ s.active.manages (reqIssuer p).toNat = true ∧ readRequest p = r

/-- The reply a request is answered with (section 10.3). -/
def replyTo (p : List Byte) (status : Status) (results : List Byte) : OwnFrame :=
  .reply { issuer := reqIssuer p, kind := reqKind p, tag := reqTag p, status := status, results := results }

/-- The oldest request is gone, its reply stands at the end of UP_OWN, and the Responder waits for no event; nothing else is
changed. -/
def State.answered (s : State) (p : List Byte) (status : Status) (results : List Byte) : State :=
  { s with inbox := s.inbox.drop 1
           told := false
           portD := { s.portD with own := s.portD.own ++ [replyTo p status results] } }

/-- The oldest request is gone and its reply is the newest frame of UP_OWN. -/
def Replied (s t : State) (p : List Byte) (status : Status) (results : List Byte) : Prop :=
  t.inbox = s.inbox.drop 1 ∧ t.portD.own.getLast? = some (replyTo p status results)

/-- The number of argument bytes is one the request's kind has (section 12.2). -/
def Request.argsFit (r : Request) (n : Nat) : Bool :=
  match r with
  | .badKind => false
  | .readEntry => n == 4
  | .openLoad => n == 2
  | .writeEntry => decide (3 ≤ n)
  | .abandon => n == 1
  | .copy => n == 1
  | .abandonCopy => n == 1
  | .check => n == 1
  | .commit => n == 1
  | .setClock => n == 6
  | .resumeStation => n == 1
  | .resumeGate => n == 1
  | .forceGate => n == 3
  | .setMemberOut => n == 2
  | .reseedReach => n == 1
  | .readMarks => n == 1
  | .snapshot => n == 0
  | .readSnapshot => n == 1
  | .setSampler => n == 2
  | .readTrace => n == 0
  | .readCounts => n == 1
  | .restart => n == 0

/-- The command that takes a request of a row. -/
def Request.command : Request → Instr
  | .badKind => .mgmtBadKind
  | .readEntry => .readEntry
  | .openLoad => .openLoad
  | .writeEntry => .writeEntry
  | .abandon => .abandon
  | .copy => .copy
  | .abandonCopy => .abandon
  | .check => .check
  | .commit => .commit
  | .setClock => .setClock
  | .resumeStation => .resumeStation
  | .resumeGate => .resumeGate
  | .forceGate => .forceGate
  | .setMemberOut => .setMemberOut
  | .reseedReach => .reseedReach
  | .readMarks => .readMarks
  | .snapshot => .snapshot
  | .readSnapshot => .readSnapshot
  | .setSampler => .setSampler
  | .readTrace => .readTrace
  | .readCounts => .readCounts
  | .restart => .restart

/-- The notices a reset places: RESTARTED with the kind and the plan number restored, then PLAN_LOST when the retained copy
failed its check (R153, R165). -/
def resetNotices (s t : State) (kind : Nat) : List OwnFrame :=
  let restarted : Notice := { kind := .restarted, subject := .none, time := t.now, detail := kind,
                              value := t.store.active.number, gap := false }
  let lost : Notice := { kind := .planLost, subject := .none, time := t.now, detail := 0, value := 0, gap := false }
  if s.store.retained.agrees then [.notice restarted] else [.notice restarted, .notice lost]

/-- Every block holds its reset values for the plan the retained copy gives (R3, R41, R64, R77, R98, R117, R135, R140,
R143, R144, R146 to R151, R153, R165, R166, section 11.3). -/
structure ResetLeaves (s t : State) (kind : Nat) : Prop where
  active : t.store.active = if s.store.retained.agrees then s.store.retained.plan else Plan.empty
  store : t.store.planPending = Plan.empty ∧ t.store.run = none ∧ t.store.writing = false
    ∧ t.store.retained = s.store.retained
  node : t.node = if t.straps = 0xFF#8 then none else some t.straps
  portF : t.portF = PortF.reset
  portD : t.portD = { PortD.reset with own := resetNotices s t kind }
  inbox : t.inbox = [] ∧ t.told = false
  chans : ∀ g, t.chan g = Channel.resetAs (if t.active.bound g then .wait else .unbound)
  stations : ∀ k, (t.stationEntry k).isPresent = true →
    t.station k = Station.resetWith (t.stationEntry k).qminEnv (t.stationEntry k).qmaxChan
  silence : ∀ k, t.silenceOf k = { level := .l0, timer :=
    if (t.stationEntry k).isPresent ∧ 0 < (t.stationEntry k).silenceCount then some (t.stationEntry k).silencePeriod
    else none }
  reaches : ∀ k, (t.reachEntry k).isPresent = true →
    t.reach k = { line := [{ flow := 0, minutes := (t.reachEntry k).tau }], unseeded := true, coarse := 0 }
  gangs : ∀ c, (t.gangEntry c).isPresent = true →
    t.gang c = { holder := none, lastMover := (t.members c).getLast?, dwell := none, out := [], hold := true }
  rejects : t.rejects = RejectCounts.zero
  armed : ∀ n, t.armed.get n = (t.active.sched.get n).isPresent
  report : t.report = { gapMark := false, snapshot := none,
                        sampler := { interval := 0, countdown := 0, tagged := none, record := none } }

/-- The Plan Store is sound (R152, R153, R157): ACTIVE and the retained copy pass every check, a write in flight copies
ACTIVE and does not agree yet, and an open run has 1 to 1024 entries left. -/
def StoreSound (s : State) : Prop :=
  s.store.active.valid = true ∧ s.store.retained.plan.valid = true
    ∧ (s.store.writing = true → s.store.retained.plan = s.store.active ∧ s.store.retained.agrees = false)
    ∧ ∀ n, s.store.run = some n → 1 ≤ n ∧ n ≤ 1024

/-- Every queue keeps within its places (R144, R146, R147, R149), no place is reserved between events, and a request waits in the
inbox only while UP_OWN is full or the Responder is told of room (R149, log 6). -/
def QueuesFit (s : State) : Prop :=
  s.portF.urgent.length ≤ 16 ∧ s.portF.routine.length ≤ 64 ∧ s.portF.streak ≤ 8 ∧ s.portD.fwd.length ≤ 64
    ∧ s.portD.own.length ≤ 32 ∧ s.portD.reserved = 0 ∧ s.inbox.length ≤ 4
    ∧ (s.inbox = [] ∨ s.told = true ∨ s.portD.own.length = 32)

/-- The line of a reach of the ACTIVE plan (R64): its durations sum to the travel time, it holds at most 96 parcels, and
each parcel at least one minute. -/
def LineSound (s : State) (k : ReachId) : Prop :=
  (s.reachEntry k).isPresent = true →
    lineMinutes (s.reach k).line = (s.reachEntry k).tau ∧ (s.reach k).line.length ≤ 96
      ∧ ∀ p ∈ (s.reach k).line, 1 ≤ p.minutes

/-- The Plan Store is sound and so is every reach line. -/
def LinesSound (s : State) : Prop := StoreSound s ∧ ∀ k, LineSound s k

/-- The clock holds a valid time (R129). -/
def ClockSound (s : State) : Prop := s.clock.valid = true

/-- The silence record of a station fits its entry (R117, R118, R121): not supervised, level 0 and stopped; supervised,
level 2 stopped and levels 0 and 1 running with at most the period left. -/
def SilenceFits (s : State) (k : StationId) : Prop :=
  if (s.stationEntry k).isPresent ∧ 0 < (s.stationEntry k).silenceCount then
    match (s.silenceOf k).level, (s.silenceOf k).timer with
    | .l2, none => True
    | .l0, some n => n ≤ (s.stationEntry k).silencePeriod
    | .l1, some n => n ≤ (s.stationEntry k).silencePeriod
    | _, _ => False
  else s.silenceOf k = { level := .l0, timer := none }

/-- Every silence record fits its entry. -/
def SilenceSound (s : State) : Prop := ∀ k, SilenceFits s k

/-- A channel is in UNBOUND exactly when its gate is absent from the ACTIVE plan (R1). -/
def BindingSound (s : State) : Prop := ∀ g, (s.chan g).state = .unbound ↔ s.active.bound g = false

/-- An opening that is held lies in 0..1000. -/
def openingIn (o : Option Nat) : Prop := ∀ n, o = some n → n ≤ 1000

/-- Every measured opening, governed target, step target and start opening lies in 0..1000 (R3). -/
def OpeningsSound (s : State) : Prop :=
  StoreSound s ∧ ∀ g, openingIn (s.chan g).measured ∧ openingIn (s.chan g).governed
    ∧ openingIn (s.chan g).state.stepTarget ∧ openingIn (s.chan g).start

end Sys2Proof.Machine
end

