-- ==== Sys2Proof/Certificates/Slice0/Obligations.lean ====
section
/-! DEFINITION. The statements for the provers, one Prop each: the step and the resets, the ports, admission and rating, the
channels and gangs, time, the management requests, and the invariants every step keeps. -/

section

open Sys2Proof Sys2Proof.Machine

/-! ### The step and the resets -/

/-- A step takes the command at the front of the queue and runs it on the state with the queue's rest; on an empty queue it
idles (log 2). -/
def Obligations.StepTakesTheFrontCommand : Prop :=
  (∀ (c : Instr) (s : State), step (s.withQueue (c :: s.pending)) = exec c s)
    ∧ (∀ (c : Instr) (rest : List Instr) (s : State), s.pending = c :: rest → step s = exec c (s.withQueue rest))
    ∧ ∀ s : State, s.pending = [] → step s = .next s

/-- Every command ends in a next state (with nothing to act on it does nothing: the model's choice of log 1), settled (the end
of a trace within the event that ends it: log 10), with the queue kept; only the pin commands change FIELD_READY, and only the
two reset commands bring strap levels (the model's choice of log 12). Every command but the resets and the two beginnings finds
the transmissions due already begun, and then none is due and a settled state is settled still (the place of a beginning between
two commands is the model's choice of log 5). -/
def Obligations.EveryCommandCompletes : Prop :=
  (∀ (c : Instr) (s : State), ∃ t, exec c s = .next t ∧ t.settled ∧ t.pending = s.pending
    ∧ (c ≠ .fieldReadyAsserted → c ≠ .fieldReadyDeasserted → t.fieldReady = s.fieldReady)
    ∧ ((∀ x, c ≠ .powerOnReset x ∧ c ≠ .externalReset x) → t.straps = s.straps))
  ∧ (∀ s : State, s.begun.dueF = false ∧ s.begun.dueD = false ∧ (s.settled → s.begun.settled))
  ∧ ∀ (c : Instr) (s : State), (∀ x, c ≠ .powerOnReset x ∧ c ≠ .externalReset x) →
      (∀ x, c ≠ .portFTxBegin x) → (∀ x, c ≠ .portDTxBegin x) → exec c s = exec c s.begun

/-- Every invariant stated below holds right after reset. -/
def Obligations.InvariantsHoldAtReset : Prop :=
  State.reset.settled ∧ StoreSound State.reset ∧ QueuesFit State.reset ∧ ClockSound State.reset ∧ LinesSound State.reset
    ∧ SilenceSound State.reset ∧ BindingSound State.reset ∧ OpeningsSound State.reset

/-- A power-on reset and an external reset leave every block at its reset values (the words and pins kept by a reset, owed
minute's work, the clear armed mark of an absent schedule entry, PLAN_LOST without subject, and the entries of the empty
plan are the model's choice: logs 4, 12, 16, 20, 27). -/
def Obligations.ResetsLeaveTheResetValues : Prop :=
  ∀ (x : Byte) (s : State),
    (∃ t, exec (.powerOnReset x) s = .next t ∧ ResetLeaves s t 0 ∧ t.straps = x ∧ t.fieldReady = s.fieldReady
      ∧ t.clock = { year := 0, day := 1, hour := 0, minute := 0, second := 0 } ∧ t.prescaler = 0
      ∧ t.minuteDue = MinuteDue.none ∧ t.pending = s.pending ∧ t.freeCount = s.freeCount)
    ∧ (∃ t, exec (.externalReset x) s = .next t ∧ ResetLeaves s t 1 ∧ t.straps = x ∧ t.fieldReady = s.fieldReady
      ∧ t.clock = s.clock ∧ t.prescaler = s.prescaler ∧ t.minuteDue = s.minuteDue ∧ t.pending = s.pending
      ∧ t.freeCount = s.freeCount)

/-- RESTART takes the effect of the external reset, with the straps read as they stand, unless the retained write is in
flight or it carries arguments. (That the minute's work still owed is kept is the model's choice of log 4, that the strap
levels are those the last reset command brought that of log 12, the clear armed mark of an absent schedule entry that of log
16, PLAN_LOST without subject that of log 20, the entries of the empty plan that of log 27.) (The issuer's byte may be one
above 63: log 32.) -/
def Obligations.RestartResetsThePart : Prop :=
  ∀ (s : State) (p : List Byte), s.ready → s.asks p .restart →
    (reqArgs p = [] → s.store.writing = false →
      ∃ t, exec .restart s = .next t ∧ ResetLeaves s t 2 ∧ t.clock = s.clock ∧ t.prescaler = s.prescaler
        ∧ t.straps = s.straps ∧ t.fieldReady = s.fieldReady ∧ t.minuteDue = s.minuteDue ∧ t.pending = s.pending
        ∧ t.freeCount = s.freeCount)
    ∧ (reqArgs p = [] → s.store.writing = true → exec .restart s = .next (s.answered p .refusedState []))
    ∧ (reqArgs p ≠ [] → exec .restart s = .next (s.answered p .badArgument []))

/-- FIELD_READY, the ends of transmissions and the end of the retained write change their own state only: that a transmission they
make due begins next, and not within them, is the model's choice of log 5. With no write in flight its completion does nothing
(log 1). -/
def Obligations.PinsTransmittersAndRetainedWrite : Prop :=
  ∀ s : State, s.quiet →
    exec .fieldReadyAsserted s = .next { s with fieldReady := true }
    ∧ exec .fieldReadyDeasserted s = .next { s with fieldReady := false }
    ∧ exec .portFTxEnd s = .next (s.setPortF { s.portF with sending := none })
    ∧ exec .portDTxEnd s = .next (s.setPortD { s.portD with sending := none })
    ∧ (s.store.writing = true → exec .retainedWriteComplete s = .next
        (s.setStore { s.store with writing := false, retained := { plan := s.store.retained.plan, agrees := true } }))
    ∧ (s.store.writing = false → exec .retainedWriteComplete s = .next s)

/-! ### The line ports -/

/-- The table of the urgent streak: which frame port F begins, and the streak after it; the streak is 0 after each reset,
and a pause of FIELD_READY leaves it as it stands, its end too, since the frame begins behind the assertion and not within
it (the model's choice of log 5). (The issuer's byte may be one above 63: log 32.) -/
def Obligations.PortFChoosesByTheUrgentStreak : Prop :=
  (∀ (s : State) (claim : Claim) (f : LineFrame) (rest : List LineFrame), s.fieldReady = true → s.portF.sending = none →
    s.told = false →
    ∃ t, exec (.portFTxBegin claim) s = .next t
      ∧ (s.portF.urgent = f :: rest → s.portF.routine = [] →
          t.portF.sending = some f ∧ t.portF.streak = min (s.portF.streak + 1) 8)
      ∧ (s.portF.urgent = f :: rest → s.portF.routine ≠ [] → s.portF.streak < 8 →
          t.portF.sending = some f ∧ t.portF.streak = s.portF.streak + 1)
      ∧ (s.portF.urgent ≠ [] → s.portF.routine = f :: rest → s.portF.streak = 8 →
          t.portF.sending = some f ∧ t.portF.streak = 0)
      ∧ (s.portF.urgent = [] → s.portF.routine = f :: rest → t.portF.sending = some f ∧ t.portF.streak = 0))
  ∧ (∀ (s : State) (x : Byte),
      (∃ t, exec (.powerOnReset x) s = .next t ∧ t.portF.streak = 0)
      ∧ ∃ t, exec (.externalReset x) s = .next t ∧ t.portF.streak = 0)
  ∧ (∀ (s : State) (p : List Byte), s.ready → s.asks p .restart → reqArgs p = [] → s.store.writing = false →
      ∃ t, exec .restart s = .next t ∧ t.portF.streak = 0)
  ∧ ∀ s : State, s.quiet → (∃ t, exec .fieldReadyDeasserted s = .next t ∧ t.portF.streak = s.portF.streak)
      ∧ ∃ t, exec .fieldReadyAsserted s = .next t ∧ t.portF.streak = s.portF.streak

/-- Port F begins one frame, only when ready and free; the frame leaves its queue, and the place freed goes to the longest waiting
channel, or in ROUTINE to a frame from dispatch that claims it first, behind which the channels keep waiting (that this claim is
an operand of the command is the model's choice of log 6, that a begin that is not due does nothing its reading of log 1). -/
def Obligations.PortFBeginsOneFrame : Prop :=
  ∀ (s : State), s.settled → s.told = false →
    (∀ claim, s.dueF = false → exec (.portFTxBegin claim) s = .next s)
    ∧ (s.dueF = true ↔ s.fieldReady = true ∧ s.portF.sending = none ∧ ¬ (s.portF.urgent = [] ∧ s.portF.routine = []))
    ∧ (s.fieldReady = true → s.portF.sending = none → ∀ (f : LineFrame) (rest : List LineFrame),
        (s.portF.urgent = f :: rest → s.portF.streak < 8 → s.portF.waitUrgent.settled = [] → ∀ claim,
          exec (.portFTxBegin claim) s
            = .next (s.setPortF { s.portF with urgent := rest, streak := s.portF.streak + 1, sending := some f }))
        ∧ (s.portF.routine = f :: rest → s.portF.urgent = [] → s.portF.waitRoutine.settled = [] →
          exec (.portFTxBegin .channels) s
            = .next (s.setPortF { s.portF with routine := rest, streak := 0, sending := some f }))
        ∧ (s.portF.routine = f :: rest → s.portF.urgent = [] → s.portF.routine.length = 64 →
            (∀ g ∈ s.portF.waitRoutine.settled, s.queueFor g = .routine) →
            ∀ x : LineFrame, s.goesToField x = true →
          ∃ t, exec (.portFTxBegin (.frame x)) s = .next t ∧ t.portF.routine = rest ++ [x] ∧ t.portF.sending = some f
            ∧ t.portD = { s.portD with counts := s.portD.counts.addReceived } ∧ SameBut [.portF, .portD] s t))
    ∧ (s.fieldReady = true → s.portF.sending = none → s.portF.streak < 8 →
        ∀ (f : LineFrame) (rest : List LineFrame) (g : Gate) (others : List Gate) (target : Nat) (claim : Claim),
          s.portF.urgent = f :: rest → s.portF.urgent.length = 16 → s.portF.waitUrgent.settled = g :: others →
          s.workTarget g = some target → s.mayStart g = true → s.queueFor g = .urgent →
          ∃ t, exec (.portFTxBegin claim) s = .next t
            ∧ (t.chan g).state = .step target (s.gateEntry g).stepTimeout
            ∧ t.portF.urgent = rest ++ [incrementFrame g target (((s.chan g).tag + 1) % 65536)]
            ∧ t.portF.sending = some f ∧ SameBut [.chans, .portF, .report] s t)
    ∧ (s.fieldReady = true → s.portF.sending = none → s.portF.urgent = [] →
        ∀ (f : LineFrame) (rest : List LineFrame) (g : Gate) (others : List Gate) (target : Nat),
          s.portF.routine = f :: rest → s.portF.routine.length = 64 → s.portF.waitRoutine.settled = g :: others →
          s.workTarget g = some target → s.mayStart g = true → s.queueFor g = .routine →
          ∃ t, exec (.portFTxBegin .channels) s = .next t
            ∧ (t.chan g).state = .step target (s.gateEntry g).stepTimeout
            ∧ t.portF.routine = rest ++ [incrementFrame g target (((s.chan g).tag + 1) % 65536)]
            ∧ t.portF.sending = some f ∧ SameBut [.chans, .portF, .report] s t)

/-- Port D sends from its two queues in alternation; the Responder takes a waiting request into the place an own frame
leaves (a SET_CLOCK behind the minute owed: log 4), or, told to wait, behind the next event when that event hands on a
notice and before it when it hands on none, as before every MGMT_REQ that arrives, the events of a model minute counting as
one (the order is an operand of the command, the model's choice of log 6; the byte of a notice without subject is free, log
14; a begin that is not due does nothing, log 1). -/
def Obligations.PortDAlternates : Prop :=
  ∀ (s : State), s.settled →
    (∀ first, s.dueD = false → exec (.portDTxBegin first) s = .next s)
    ∧ (s.dueD = true ↔ s.portD.sending = none ∧ ¬ (s.portD.fwd = [] ∧ s.portD.own = []))
    ∧ (s.portD.sending = none → ∀ (first : FirstTaker) (f : LineFrame) (rest : List LineFrame),
        s.portD.fwd = f :: rest → s.portD.own = [] ∨ s.portD.lastFrom = .own →
        exec (.portDTxBegin first) s
          = .next (s.setPortD { s.portD with fwd := rest, lastFrom := .fwd, sending := some f }))
    ∧ (s.portD.sending = none → s.told = false → ∀ (first : FirstTaker) (f : OwnFrame) (rest : List OwnFrame),
        s.portD.own = f :: rest → s.portD.fwd = [] ∨ s.portD.lastFrom = .fwd →
        (first = .nextEvent ∨ s.inbox = [] →
          exec (.portDTxBegin first) s
            = .next { (s.setPortD { s.portD with own := rest, lastFrom := .own,
                                                 sending := some (f.frame (Config.freeByte s.freeCount 0)) }).useFree with
                      told := decide (s.inbox ≠ []) })
        ∧ (first = .responder → s.portD.own.length = 32 → s.portD.reserved = 0 → ∀ p ps, s.inbox = p :: ps →
            readRequest p ≠ .restart → (readRequest p = .setClock → s.minuteOwed = false) →
            ∃ t status results, exec (.portDTxBegin first) s = .next t ∧ t.inbox = ps ∧ t.told = false
              ∧ t.portD.own = rest ++ [replyTo p status results]))
    ∧ (s.dueF = false → s.dueD = false → s.told = true →
        (∀ c : Instr, (∀ x, c ≠ .powerOnReset x ∧ c ≠ .externalReset x) → (∀ x, c ≠ .portDTxBegin x) →
          (∀ x, c ≠ .portFTxBegin x) → c ≠ .secondTick → (∀ x, c ≠ .modelMinute x) → (∀ d q, c ≠ .mgmtReq d q) →
          (∀ r : Request, c ≠ r.command) →
          ∃ t, exec c { s with told := false } = .next t
            ∧ (s.noticeCount < t.noticeCount → exec c s = .next (State.serve t.inbox.length t))
            ∧ (t.noticeCount ≤ s.noticeCount → exec c s = exec c s.hear))
        ∧ (∀ d q, exec (.mgmtReq d q) s = exec (.mgmtReq d q) s.hear)
        ∧ (∀ claim, ∃ t, exec (.portFTxBegin claim) { s with told := false } = .next t
            ∧ exec (.portFTxBegin claim) s = .next (State.serve t.inbox.length t))
        ∧ (s.portD.sending.isSome = true → ∀ part, (∃ e ∈ minuteEvents part, s.isDue e = true) →
          ∃ t, exec (.modelMinute part) { s with told := false, inbox := [] } = .next t
            ∧ (t.noticeCount ≤ s.noticeCount → exec (.modelMinute part) s = exec (.modelMinute part) s.hear)
            ∧ (s.noticeCount < t.noticeCount → (∀ p ∈ s.inbox, readRequest p ≠ .restart) →
                ∃ u n rest, exec (.modelMinute part) s = .next u ∧ u.portD.own = s.portD.own ++ OwnFrame.notice n :: rest)))

/-- A damaged frame is counted on its port and does nothing else; the undamaged bytes are exactly those of the frames of at most
56 payload bytes, and the check value of the manual's nine characters is 29B1h. (Bytes that are not damaged are another command's:
log 17.) -/
def Obligations.DamagedFramesAreOnlyCounted : Prop :=
  (∀ (s : State) (bytes : List Byte) (marked : Bool), s.quiet →
      (frameDamaged bytes marked = true →
        exec (.damagedFrame .d bytes marked) s
          = .next (s.setPortD { s.portD with counts := { s.portD.counts with damaged := countUp s.portD.counts.damaged } })
        ∧ exec (.damagedFrame .f bytes marked) s
          = .next (s.setPortF { s.portF with counts := { s.portF.counts with damaged := countUp s.portF.counts.damaged } }))
      ∧ (frameDamaged bytes marked = false → ∀ port, exec (.damagedFrame port bytes marked) s = .next s))
    ∧ (∀ bytes : List Byte, frameDamaged bytes false = true)
    ∧ (∀ f : LineFrame, f.payload.length ≤ 56 → frameDamaged f.bytes true = false)
    ∧ (∀ bytes : List Byte, frameDamaged bytes true = false → ∃ f : LineFrame, f.payload.length ≤ 56 ∧ bytes = f.bytes)
    ∧ crc16 [0x31#8, 0x32#8, 0x33#8, 0x34#8, 0x35#8, 0x36#8, 0x37#8, 0x38#8, 0x39#8] = 0x29B1#16

/-- Frames the part has no business with are placed unchanged in ROUTINE (from dispatch, a MGMT_REQ for another node
included) or in UP_FWD (from the field), or dropped and counted when the queue is full. -/
def Obligations.FramesPassUnchanged : Prop :=
  ∀ (s : State) (f : LineFrame), s.quiet → f.payload.length ≤ 56 →
    (∀ c : Instr,
      (c = .dispatchFramePass f ∧ f.typ ≠ typSetpoint ∧ f.typ ≠ typKeepalive ∧ f.typ ≠ typInflow
          ∧ (f.typ = typMgmtReq → s.node ≠ some f.dest))
        ∨ (c = .mgmtReq f.dest f.payload ∧ f.typ = typMgmtReq ∧ s.node ≠ some f.dest) →
      (s.portF.routine.length < 64 →
        exec c s = .next ((s.countD PortCounts.addReceived).setPortF { s.portF with routine := s.portF.routine ++ [f] }))
      ∧ (64 ≤ s.portF.routine.length →
        exec c s = .next ((s.countD PortCounts.addReceived).countF PortCounts.addDropped)))
    ∧ (f.typ ≠ typPosition → f.typ ≠ typGauge →
      (s.portD.fwd.length < 64 →
        exec (.fieldFrameForward f) s
          = .next ((s.countF PortCounts.addReceived).setPortD { s.portD with fwd := s.portD.fwd ++ [f] }))
      ∧ (64 ≤ s.portD.fwd.length →
        exec (.fieldFrameForward f) s = .next ((s.countF PortCounts.addReceived).countD PortCounts.addDropped)))

/-! ### Admission -/

/-- A SETPOINT, KEEPALIVE or INFLOW is rejected for the first check that fails: issuer, right, window, binding, availability,
station. -/
def Obligations.RejectedFramesAreOnlyCounted : Prop :=
  ∀ (s : State) (dest : Byte) (p : List Byte), s.quiet →
    (∀ (f : SetpointFields) (g : Gate), p.length = 7 → f = readSetpoint p → f.gate = g.1 →
      (f.issuer > 63 ∨ s.active.authFor f.issuer = none →
        Rejects (.setpoint dest p) s .setpoint f.issuer g.1 .unknownIssuer (packValue f.tag f.opening))
      ∧ ∀ e : AuthEntry, f.issuer ≤ 63 → s.active.authFor f.issuer = some e →
        (e.command = false ∨ (f.override = true ∧ e.override = false) →
          Rejects (.setpoint dest p) s .setpoint f.issuer g.1 .noRight (packValue f.tag f.opening))
        ∧ (e.command = true → (f.override = true → e.override = true) →
          (e.inWindow g.1 = false →
            Rejects (.setpoint dest p) s .setpoint f.issuer g.1 .outOfWindow (packValue f.tag f.opening))
          ∧ (e.inWindow g.1 = true → s.active.bound g = false →
            Rejects (.setpoint dest p) s .setpoint f.issuer g.1 .gateUnbound (packValue f.tag f.opening))
          ∧ (e.inWindow g.1 = true → s.active.bound g = true → (s.chan g).state.takes = false →
            Rejects (.setpoint dest p) s .setpoint f.issuer g.1 .gateUnavailable (packValue f.tag f.opening))))
    ∧ (∀ (c : Instr) (frame : AdmissionFrame) (value : Nat),
      (c = .keepalive dest p ∧ frame = .keepalive ∧ p.length = 2 ∧ value = 0)
        ∨ (c = .inflow dest p ∧ frame = .inflow ∧ p.length = 5 ∧ value = fieldAt p 2 3) →
      (byteAt p 0 > 63 ∨ s.active.authFor (byteAt p 0) = none →
        Rejects c s frame (byteAt p 0) (byteAt p 1) .unknownIssuer value)
      ∧ ∀ e : AuthEntry, byteAt p 0 ≤ 63 → s.active.authFor (byteAt p 0) = some e →
        (e.command = false → Rejects c s frame (byteAt p 0) (byteAt p 1) .noRight value)
        ∧ (e.command = true → (∀ k : StationId, byteAt p 1 = k.1 → (s.stationEntry k).isPresent = false) →
          Rejects c s frame (byteAt p 0) (byteAt p 1) .stationAbsent value))

/-- The issuer's window compares six binary digits: where the mask has a 1 the gate's digit equals the base's. -/
def Obligations.IssuerWindowComparesSixDigits : Prop :=
  ∀ (e : AuthEntry) (gate : Nat),
    (e.inWindow gate = true ↔ ∀ i < 6, e.mask.testBit i = true → gate.testBit i = e.base.testBit i)
    ∧ (e.mask = 0 → e.inWindow gate = true)
    ∧ (e.mask = 63 → gate ≤ 63 → e.base ≤ 63 → (e.inWindow gate = true ↔ gate = e.base))

/-- A SETPOINT for a gate of 48..63 goes to ROUTINE unjudged; a frame of the wrong length or with a gate byte above 63 is
discarded and counted damaged. (A payload no line frame can hold is damaged: log 17.) -/
def Obligations.HighGatesPassAndMalformedFramesDrop : Prop :=
  ∀ (s : State) (dest : Byte) (p : List Byte), s.quiet →
    (p.length = 7 → 48 ≤ byteAt p 1 → byteAt p 1 ≤ 63 →
      (s.portF.routine.length < 64 →
        exec (.setpoint dest p) s = .next ((s.countD PortCounts.addReceived).setPortF
          { s.portF with routine := s.portF.routine ++ [{ dest := dest, typ := typSetpoint, payload := p }] }))
      ∧ (64 ≤ s.portF.routine.length →
        exec (.setpoint dest p) s = .next ((s.countD PortCounts.addReceived).countF PortCounts.addDropped)))
    ∧ (∀ c : Instr, p.length ≤ 56 →
      (c = .setpoint dest p ∧ (p.length ≠ 7 ∨ 63 < byteAt p 1)) ∨ (c = .keepalive dest p ∧ p.length ≠ 2)
        ∨ (c = .inflow dest p ∧ p.length ≠ 5) →
      exec c s = .next ((s.countD PortCounts.addReceived).countD PortCounts.addDamaged))
    ∧ (∀ c : Instr, 56 < p.length →
      c = .setpoint dest p ∨ c = .keepalive dest p ∨ c = .inflow dest p ∨ c = .mgmtReq dest p →
      exec c s = .next (s.countD PortCounts.addDamaged))

/-- An admitted INFLOW sets the station's local inflow and nothing else but the received count. -/
def Obligations.InflowSetsTheLocalInflow : Prop :=
  ∀ (s : State) (dest : Byte) (p : List Byte) (k : StationId) (e : AuthEntry), s.quiet → p.length = 5 →
    byteAt p 0 ≤ 63 → s.active.authFor (byteAt p 0) = some e → e.command = true → byteAt p 1 = k.1 →
    (s.stationEntry k).isPresent = true →
    exec (.inflow dest p) s
      = .next ((s.countD PortCounts.addReceived).setStation k { s.station k with qLocal := fieldAt p 2 3 })

/-- An admitted KEEPALIVE acts by the station's silence level: it restarts the timer at level 0, resumes the station at
level 1 and does nothing at level 2; a station without supervision is not touched at level 0. -/
def Obligations.KeepaliveActsByTheSilenceLevel : Prop :=
  ∀ (s : State) (dest : Byte) (p : List Byte) (k : StationId) (e : AuthEntry), s.quiet → p.length = 2 →
    byteAt p 0 ≤ 63 → s.active.authFor (byteAt p 0) = some e → e.command = true → byteAt p 1 = k.1 →
    (s.stationEntry k).isPresent = true →
    ((s.silenceOf k).level = .l0 → 0 < (s.stationEntry k).silenceCount →
      exec (.keepalive dest p) s = .next ((s.countD PortCounts.addReceived).setSilence k
        { level := .l0, timer := some (s.stationEntry k).silencePeriod }))
    ∧ ((s.silenceOf k).level = .l0 → (s.stationEntry k).silenceCount = 0 →
      exec (.keepalive dest p) s = .next (s.countD PortCounts.addReceived))
    ∧ ((s.silenceOf k).level = .l2 → exec (.keepalive dest p) s = .next (s.countD PortCounts.addReceived))
    ∧ ((s.silenceOf k).level = .l1 → 0 < (s.stationEntry k).silenceCount →
      ∃ t, exec (.keepalive dest p) s = .next t
        ∧ t.silenceOf k = { level := .l0, timer := some (s.stationEntry k).silencePeriod }
        ∧ (∀ g, s.active.boundTo k g = true → (t.chan g).state ≠ .hold .silence ∧ (t.chan g).silencePending = false)
        ∧ (∀ g, (t.chan g).governed = (s.chan g).governed ∧ (t.chan g).source = (s.chan g).source
            ∧ (t.chan g).clamp = (s.chan g).clamp)
        ∧ Noticed s t .silenceResume (.station k.1) (packDetail 0 1) (packValue (s.silenceHeld k).length 0)
        ∧ SameBut [.silence, .chans, .gangs, .portF, .portD, .report] s t)

/-- An admitted SETPOINT sets its channel's governed target, source and clamp mark: the opening brought to 1000 and, unless
it carries OVERRIDE, clamped to the window. It counts as activity of its station: at silence level 0 the timer restarts, at
level 1 the station resumes, at level 2 its record stays. It is counted down or tagged by the sampler, or, on the channel of
the command that is followed, ends its trace. Other channels' targets, the stations, the reaches, the clock and the plan
stay. (That a trace may end within the event that tags it, and when it does, is the model's choice of logs 9 and 10.) -/
def Obligations.AdmittedSetpointSetsTheTarget : Prop :=
  ∀ (s : State) (dest : Byte) (p : List Byte) (f : SetpointFields) (g : Gate) (k : StationId) (e : AuthEntry),
    s.quiet → p.length = 7 → f = readSetpoint p → f.gate = g.1 → f.issuer ≤ 63 → s.active.authFor f.issuer = some e →
    e.command = true → (f.override = true → e.override = true) → e.inWindow g.1 = true → s.active.boundTo k g = true →
    (s.chan g).state.takes = true →
    ∃ t, exec (.setpoint dest p) s = .next t
      ∧ (t.chan g).source = .dispatch
      ∧ (f.override = true → (t.chan g).governed = some (min f.opening 1000)
          ∧ (t.chan g).clamp = if 1000 < f.opening then .range else .none)
      ∧ (f.override = false →
          (t.chan g).governed = some (s.windowClamp k g (min f.opening 1000) (decide (1000 < f.opening))).1
          ∧ (t.chan g).clamp = (s.windowClamp k g (min f.opening 1000) (decide (1000 < f.opening))).2)
      ∧ (t.chan g).measured = (s.chan g).measured
      ∧ (∀ h, h ≠ g → (t.chan h).governed = (s.chan h).governed ∧ (t.chan h).source = (s.chan h).source
          ∧ (t.chan h).clamp = (s.chan h).clamp ∧ (t.chan h).measured = (s.chan h).measured)
      ∧ t.portD.counts = s.portD.counts.addReceived
      ∧ ((s.silenceOf k).level = .l0 → 0 < (s.stationEntry k).silenceCount →
          t.silenceOf k = { level := .l0, timer := some (s.stationEntry k).silencePeriod })
      ∧ ((s.silenceOf k).level = .l0 → (s.stationEntry k).silenceCount = 0 → t.silenceOf k = s.silenceOf k)
      ∧ ((s.silenceOf k).level = .l1 →
          t.silenceOf k = { level := .l0, timer :=
            if 0 < (s.stationEntry k).silenceCount then some (s.stationEntry k).silencePeriod else none }
          ∧ (∀ h, s.active.boundTo k h = true → (t.chan h).state ≠ .hold .silence ∧ (t.chan h).silencePending = false)
          ∧ (s.active.gangOf g = none → Noticed s t .silenceResume (.station k.1) (packDetail 0 1)
              (packValue ((s.silenceHeld k).filter fun h => h != g).length 0)))
      ∧ ((s.silenceOf k).level = .l2 → t.silenceOf k = s.silenceOf k)
      ∧ (∀ j, j ≠ k → t.silenceOf j = s.silenceOf j)
      ∧ t.report.sampler.interval = s.report.sampler.interval
      ∧ (s.report.sampler.interval = 0 ∨ s.report.sampler.tagged ≠ none ∨ s.report.sampler.record ≠ none →
          t.report.sampler.countdown = s.report.sampler.countdown)
      ∧ (0 < s.report.sampler.interval → s.report.sampler.tagged = none → s.report.sampler.record = none →
          (0 < s.report.sampler.countdown →
            t.report.sampler = { s.report.sampler with countdown := s.report.sampler.countdown - 1 })
          ∧ (s.report.sampler.countdown = 0 → ∃ trace : Trace,
            trace.issuer = f.issuer ∧ trace.gate = g ∧ trace.opening = f.opening
            ∧ some trace.governed = (t.chan g).governed ∧ trace.clamp = (t.chan g).clamp
            ∧ trace.qmin = (s.station k).qmin ∧ trace.qmax = (s.station k).qmax ∧ trace.planned = t.planned k
            ∧ trace.admitted = s.now
            ∧ (trace.enqueued = if (t.chan g).tag = (s.chan g).tag then none else some s.now)
            ∧ t.report.sampler.countdown = 0
            ∧ ((t.report.sampler.tagged = some trace ∧ t.report.sampler.record = none)
                ∨ (t.report.sampler.tagged = none
                    ∧ ∃ r, t.report.sampler.record = some r ∧ r.trace = trace ∧ r.ended = s.now))))
      ∧ (∀ tr, s.report.sampler.tagged = some tr → tr.gate = g →
          t.report.sampler.tagged = none
          ∧ ∃ r, t.report.sampler.record = some r ∧ r.trace = tr ∧ r.ended = s.now ∧ r.cause = .superseded)
      ∧ SameBut [.chans, .gangs, .portF, .portD, .report, .silence] s t

/-- The target and the mark of the window clamp between its bounds. -/
def Obligations.WindowClampTargetAndMark : Prop :=
  ∀ (r lo hi : Nat) (unreachable ranged : Bool) (t : Nat) (mark : ClampMark), clampTo r lo hi unreachable ranged = (t, mark) →
    t = min (max r lo) hi
    ∧ (t < r → mark = .capMax)
    ∧ (r < t → unreachable = true → mark = .unreachableMin)
    ∧ (r < t → unreachable = false → mark = .capMin)
    ∧ (t = r → ranged = true → mark = .range)
    ∧ (t = r → ranged = false → mark = .none)

/-- The clamp never moves a gate against its request, and a target it moves away from the present one keeps the station's
planned outflow within the window on that side. -/
def Obligations.ClampKeepsTheWindow : Prop :=
  ∀ (s : State) (k : StationId) (g : Gate) (r : Nat) (ranged : Bool), OpeningsSound s → s.active.boundTo k g = true →
    let target := (s.windowClamp k g r ranged).1
    let present := (s.chan g).plannedOpening
    let planned := s.plannedExcept k (fun h => h == g) + s.rate g (s.headOf k) target
    (present ≤ r → present ≤ target) ∧ (r ≤ present → target ≤ present)
    ∧ (present < target → planned ≤ (s.station k).qmax)
    ∧ (target < present → (s.station k).qmin ≤ planned)
    ∧ (target = present → planned = s.planned k)

/-! ### Rating arithmetic -/

/-- On a plan that passes every check: how the inverses of a present surface stand to its discharge at one head, that discharge
rises with the opening and the inverses with the discharge; the two conversions of a present station's table take the values of
its points, and their round trips fall short by less than the two roundings down can take, and by nothing where the quotient is
exact. (R39 words the shortfall as less than one step of the finer axis; the bound stated is the one its two roundings give, the
model's reading of log 30.) -/
def Obligations.RatingConversionsAgree : Prop :=
  ∀ s : State, StoreSound s →
    (∀ (f : SurfaceId) (head : Nat), (s.active.surfaces.get f).isPresent = true →
      let sf := s.active.surfaces.get f
      (∀ o o' : Nat, o ≤ o' → discharge sf head o ≤ discharge sf head o')
      ∧ (∀ q : Int, (discharge sf head 0 : Int) ≤ q → (discharge sf head (upperInverse sf head q) : Int) ≤ q)
      ∧ (∀ q : Int, q < (discharge sf head 0 : Int) → upperInverse sf head q = 0)
      ∧ (∀ q : Int, (lowerInverse sf head q).2 = false →
          q ≤ (discharge sf head (lowerInverse sf head q).1 : Int)
          ∧ ∀ o < (lowerInverse sf head q).1, (discharge sf head o : Int) < q)
      ∧ (∀ q : Int, (lowerInverse sf head q).2 = true →
          (lowerInverse sf head q).1 = 1000 ∧ (discharge sf head 1000 : Int) < q)
      ∧ (∀ q q' : Int, q ≤ q' → upperInverse sf head q ≤ upperInverse sf head q'
          ∧ (lowerInverse sf head q).1 ≤ (lowerInverse sf head q').1))
    ∧ (∀ k : StationId, (s.stationEntry k).isPresent = true →
      let e := s.stationEntry k
      (∀ level, (e.pointList.map Point.level).headD 0 ≤ level → level ≤ (e.pointList.map Point.level).getLastD 0 →
        levelOf e (storageOf e level) ≤ level)
      ∧ (∀ storage, (e.pointList.map Point.storage).headD 0 ≤ storage →
        storage ≤ (e.pointList.map Point.storage).getLastD 0 → storageOf e (levelOf e storage) ≤ storage)
      ∧ (∀ l l', l ≤ l' → storageOf e l ≤ storageOf e l' ∧ levelOf e l ≤ levelOf e l')
      ∧ (∀ point ∈ e.pointList, storageOf e point.level = point.storage ∧ levelOf e point.storage = point.level)
      ∧ (∀ (before after : List Point) (a b : Point), e.pointList = before ++ a :: b :: after →
        (∀ level, a.level ≤ level → level < b.level →
          (level - levelOf e (storageOf e level)) * (b.storage - a.storage) + 2
            ≤ (b.level - a.level) + (b.storage - a.storage)
          ∧ ((b.level - a.level) ∣ (b.storage - a.storage) * (level - a.level) → levelOf e (storageOf e level) = level))
        ∧ (∀ storage, a.storage ≤ storage → storage < b.storage →
          (storage - storageOf e (levelOf e storage)) * (b.level - a.level) + 2
            ≤ (b.level - a.level) + (b.storage - a.storage)
          ∧ ((b.storage - a.storage) ∣ (b.level - a.level) * (storage - a.storage) →
              storageOf e (levelOf e storage) = storage))))

/-! ### Channels and gangs -/

/-- A POSITION frame for a bound channel updates its position, leaves every other channel's measured opening, and is
forwarded; one for an unbound channel or a gate above 47 is forwarded alone; one of the wrong length is counted damaged and
forwarded. (A payload no line frame can hold is damaged: log 17.) -/
def Obligations.PositionUpdatesTheChannel : Prop :=
  ∀ (s : State) (dest : Byte) (p : List Byte), s.quiet → p.length ≤ 56 →
    (∀ g : Gate, p.length = 4 → byteAt p 0 = g.1 → (s.chan g).state ≠ .unbound →
      ∃ t, exec (.position dest p) s = .next t
        ∧ (t.chan g).measured = some (min (fieldAt p 1 2) 1000) ∧ (t.chan g).stale = false ∧ (t.chan g).age = 0
        ∧ (∀ h, h ≠ g → (t.chan h).measured = (s.chan h).measured ∧ (t.chan h).stale = (s.chan h).stale
            ∧ (t.chan h).age = (s.chan h).age)
        ∧ t.portF.counts = s.portF.counts.addReceived
        ∧ (s.portD.fwd.length < 64 →
            t.portD.fwd = s.portD.fwd ++ [{ dest := dest, typ := typPosition, payload := p }]
              ∧ t.portD.counts = s.portD.counts)
        ∧ (64 ≤ s.portD.fwd.length → t.portD.fwd = s.portD.fwd ∧ t.portD.counts = s.portD.counts.addDropped)
        ∧ SameBut [.chans, .gangs, .portF, .portD, .report] s t)
    ∧ (p.length = 4 → (∀ g : Gate, byteAt p 0 = g.1 → (s.chan g).state = .unbound) →
      exec (.position dest p) s
        = .next ((s.countF PortCounts.addReceived).forwardUp { dest := dest, typ := typPosition, payload := p }))
    ∧ (p.length ≠ 4 →
      exec (.position dest p) s
        = .next (((s.countF PortCounts.addReceived).countF PortCounts.addDamaged).forwardUp
            { dest := dest, typ := typPosition, payload := p }))
    ∧ (∀ q : List Byte, 56 < q.length → exec (.position dest q) s = .next (s.countF PortCounts.addDamaged))

/-- A flagged POSITION frame moves a bound channel by its most severe flag, with its notice; governed target and source are kept
but for a wicket gate's trip, which takes the new opening; a fault of a member holds its gang, and a wicket gate's trip of a
positive deficit raises the first eligible member of the compensation gang within the room of the window and sends COMPENSATION
with that deficit for its station. -/
def Obligations.FlaggedPositionMovesTheChannel : Prop :=
  ∀ (s : State) (dest : Byte) (p : List Byte) (g : Gate), s.quiet → p.length = 4 → byteAt p 0 = g.1 →
    (s.chan g).state ≠ .unbound →
    ∃ t, exec (.position dest p) s = .next t
      ∧ (severest (p.getD 3 0#8) = .localHand →
          (t.chan g).state = .localHand ∧ (t.chan g).governed = (s.chan g).governed
          ∧ (t.chan g).source = (s.chan g).source
          ∧ ((s.chan g).state ≠ .localHand →
              Noticed s t .gateLocal (.gate g.1) (s.chan g).state.code (min (fieldAt p 1 2) 1000)))
      ∧ (severest (p.getD 3 0#8) = .fault ∨ (severest (p.getD 3 0#8) = .trip ∧ (s.gateEntry g).isWicket = false) →
          (t.chan g).governed = (s.chan g).governed ∧ (t.chan g).source = (s.chan g).source
          ∧ ((∀ c, (s.chan g).state ≠ .fault c) → (t.chan g).state = .fault .drive
              ∧ Noticed s t .gateFault (.gate g.1) (s.chan g).state.code (min (fieldAt p 1 2) 1000))
          ∧ (∀ c, (s.chan g).state = .fault c → (t.chan g).state = .fault c))
      ∧ (severest (p.getD 3 0#8) = .trip → (s.gateEntry g).isWicket = true →
          (t.chan g).state = .fault .trip ∧ (t.chan g).governed = some (min (fieldAt p 1 2) 1000)
          ∧ ((s.chan g).state ≠ .fault .trip →
              Noticed s t .gateTrip (.gate g.1) (s.chan g).state.code ((s.chan g).measured.getD 65535))
          ∧ (∀ (k : StationId) (c : GangId) (o : Nat), (s.chan g).state ≠ .fault .trip →
              s.active.boundTo k g = true → (s.stationEntry k).compGang? = some c → (s.chan g).measured = some o →
              0 < s.rate g (s.headOf k) o →
              let head := s.headOf k
              let room := min (s.rate g head o)
                ((s.station k).qmax - (s.plannedExcept k (fun h => h == g) + s.rate g head (min (fieldAt p 1 2) 1000)))
              (s.portD.own.length + s.portD.reserved + 10 ≤ 32 →
                ∃ n covered, OwnFrame.notice n ∈ t.portD.own ∧ n.kind = .compensation ∧ n.subject = .station k.1
                  ∧ n.value = packValue (s.rate g head o) covered ∧ covered ≤ room)
              ∧ (∀ (before after : List Gate) (m : Gate) (f : SurfaceId), s.members c = before ++ m :: after → m ≠ g →
                m ∉ after → (∀ x ∈ before, s.fillable c x = false) → s.fillable c m = true →
                (s.gateEntry m).surface = f.1 →
                let present := s.rate m head (s.chan m).plannedOpening
                let part := min (s.rate m head 1000 - present) room
                0 < part →
                  (t.chan m).source = .compensation ∧ (t.chan m).clamp = .none
                  ∧ (t.chan m).governed
                      = some (lowerInverse (s.active.surfaces.get f) head ((present + part : Nat) : Int)).1)))
      ∧ (severest (p.getD 3 0#8) = .fault → ∀ c : GangId, s.active.gangOf g = some c → (s.gang c).isOut g = false →
          (s.gangEntry c).isPresent = true →
          (t.gang c).hold = true
          ∧ ∀ m ∈ s.members c, m ≠ g → (s.gang c).isOut m = false → (s.chan m).state = .idle ∨ (s.chan m).state.isDwell →
              (t.chan m).state = .hold .gang)

/-- A POSITION frame without flag moves a channel from WAIT, LOCAL or FAULT into IDLE at its measured opening (a member that
is not out, of a gang that another member holds, on to HOLD with cause GANG) and leaves one in IDLE, DWELL or HOLD where it
is but for an increment it starts from IDLE, a gang member as long as its gang is not held and nothing holds it. -/
def Obligations.UnflaggedPositionReturnsTheChannel : Prop :=
  ∀ (s : State) (dest : Byte) (p : List Byte) (g : Gate), s.quiet → p.length = 4 → byteAt p 0 = g.1 →
    severest (p.getD 3 0#8) = .clear →
    ((s.chan g).state = .wait ∨ (s.chan g).state = .localHand ∨ (∃ c, (s.chan g).state = .fault c) →
      ∃ t, exec (.position dest p) s = .next t
        ∧ ((∀ c, s.active.gangOf g = some c → (s.gang c).isOut g = true ∨ ∀ m ∈ s.blockers c, m = g) →
            (t.chan g).state = .idle)
        ∧ (∀ c, s.active.gangOf g = some c → (s.gang c).isOut g = false → (∃ m ∈ s.blockers c, m ≠ g) →
            (t.chan g).state = .hold .gang)
        ∧ (t.chan g).governed = some (min (fieldAt p 1 2) 1000) ∧ (t.chan g).source = .none ∧ (t.chan g).clamp = .none
        ∧ ((s.chan g).state ≠ .wait ∨ ((s.chan g).measured ≠ none ∧ (s.chan g).stale = true) →
            Noticed s t .gateReturn (.gate g.1) (s.chan g).state.code (min (fieldAt p 1 2) 1000))
        ∧ ((s.chan g).state = .wait → (s.chan g).measured = none → s.active.gangOf g = none →
            t.portD.own = s.portD.own))
    ∧ ((∀ c, s.active.gangOf g = some c → (s.gang c).hold = false ∧ s.blockers c = []) →
      ((∃ c, (s.chan g).state = .hold c) ∨ (∃ o, (s.chan g).state = .dwell o) →
        ∃ t, exec (.position dest p) s = .next t ∧ (t.chan g).state = (s.chan g).state
          ∧ (t.chan g).governed = (s.chan g).governed ∧ (t.chan g).source = (s.chan g).source)
      ∧ ((s.chan g).state = .idle →
        ∃ t, exec (.position dest p) s = .next t ∧ ((t.chan g).state = .idle ∨ (t.chan g).state.isStep = true)
          ∧ (t.chan g).governed = (s.chan g).governed ∧ (t.chan g).source = (s.chan g).source
          ∧ (s.active.gangOf g = none →
              (∀ goal, (s.chan g).governed = some goal →
                max goal (min (fieldAt p 1 2) 1000) - min goal (min (fieldAt p 1 2) 1000) ≤ (s.gateEntry g).deadband) →
              (t.chan g).state = .idle)))

/-- A POSITION frame without flag within the deadband of the step target confirms the increment, by the first case that
applies; outside it the increment goes on. -/
def Obligations.ConfirmationEndsTheIncrement : Prop :=
  ∀ (s : State) (dest : Byte) (p : List Byte) (g : Gate) (target timer o : Nat), s.quiet → p.length = 4 →
    byteAt p 0 = g.1 → severest (p.getD 3 0#8) = .clear → (s.chan g).state = .step target timer →
    o = min (fieldAt p 1 2) 1000 →
    ∃ t, exec (.position dest p) s = .next t
      ∧ ((s.gateEntry g).deadband < max o target - min o target →
          (t.chan g).state = .step target timer ∧ (t.chan g).silencePending = (s.chan g).silencePending)
      ∧ (max o target - min o target ≤ (s.gateEntry g).deadband →
          (∀ c, s.active.gangOf g = some c → (s.gangEntry c).isPresent = true →
            ((s.gang c).hold = true → s.blockers c ≠ [] → (s.gang c).holder = some g →
              (t.chan g).state = .hold .gang ∧ (t.chan g).silencePending = false ∧ (t.gang c).holder = none
              ∧ (t.gang c).lastMover = (s.gang c).lastMover)
            ∧ ((s.gang c).hold = false → s.blockers c = [] → (s.chan g).silencePending = true →
              (t.chan g).state = .hold .silence ∧ (t.chan g).silencePending = false
              ∧ (t.gang c).lastMover = (s.gang c).lastMover)
            ∧ ((s.gang c).hold = false → s.blockers c = [] → (s.chan g).silencePending = false →
              ∀ n, n = dwellLength (s.chan g).dwellDir (s.gangEntry c).dwellUp (s.gangEntry c).dwellDown → 0 < n →
              (t.chan g).state = .dwell none ∧ (t.gang c).holder = none ∧ (t.gang c).lastMover = some g
              ∧ (t.gang c).dwell = some { dir := (s.chan g).dwellDir.getD .up, remaining := n, member := g })
            ∧ ((s.gang c).hold = false → s.blockers c = [] → (s.chan g).silencePending = false →
              dwellLength (s.chan g).dwellDir (s.gangEntry c).dwellUp (s.gangEntry c).dwellDown = 0 →
              ((t.chan g).state = .idle ∨ (t.chan g).state.isStep = true) ∧ (t.gang c).lastMover = some g))
          ∧ (s.active.gangOf g = none →
            ((s.chan g).silencePending = true →
              (t.chan g).state = .hold .silence ∧ (t.chan g).silencePending = false)
            ∧ ((s.chan g).silencePending = false →
              ∀ n, n = dwellLength (s.chan g).dwellDir (s.gateEntry g).dwellUp (s.gateEntry g).dwellDown →
              (0 < n → (t.chan g).state = .dwell (some n))
              ∧ (n = 0 → (t.chan g).state = .idle ∨ (t.chan g).state.isStep = true))))

/-- A position, a step timeout and a gauge record act at their expiry and only then: the channel enters WAIT or HOLD with
cause STALL, the record becomes stale, each with its notice and its target kept, and a trace the channel carries ends (an expiry
that is not due has no effect: log 1; the trace ends within the event: log 10). -/
def Obligations.ExpiriesAct : Prop :=
  ∀ (s : State), s.quiet →
    (∀ g : Gate,
      ((s.chan g).staleDue = true → (s.chan g).state ≠ .unbound →
        ∃ t, exec (.positionStale g) s = .next t ∧ (t.chan g).state = .wait ∧ (t.chan g).stale = true
          ∧ (t.chan g).measured = (s.chan g).measured ∧ (t.chan g).governed = (s.chan g).governed
          ∧ (t.chan g).source = (s.chan g).source
          ∧ Noticed s t .positionStale (.gate g.1) (s.chan g).state.code ((s.chan g).measured.getD 0)
          ∧ (∀ tr, s.report.sampler.tagged = some tr → tr.gate = g → t.report.sampler.tagged = none
              ∧ t.report.sampler.record = some { trace := tr, ended := s.now, cause := .faulted, endState := 1 })
          ∧ SameBut [.chans, .gangs, .portF, .portD, .report] s t)
      ∧ ((s.chan g).staleDue = false ∨ (s.chan g).state = .unbound → exec (.positionStale g) s = .next s)
      ∧ (∀ target, (s.chan g).state = .step target 0 →
        ∃ t, exec (.stepTimeout g) s = .next t ∧ (t.chan g).state = .hold .stall
          ∧ (t.chan g).governed = (s.chan g).governed ∧ (t.chan g).source = (s.chan g).source
          ∧ (t.chan g).silencePending = false
          ∧ Noticed s t .stepStall (.gate g.1) (s.chan g).tag (packValue target ((s.chan g).measured.getD 0))
          ∧ (∀ tr, s.report.sampler.tagged = some tr → tr.gate = g → t.report.sampler.tagged = none
              ∧ t.report.sampler.record = some { trace := tr, ended := s.now, cause := .held, endState := 5 })
          ∧ SameBut [.chans, .gangs, .portF, .portD, .report] s t)
      ∧ ((∀ target, (s.chan g).state ≠ .step target 0) → exec (.stepTimeout g) s = .next s))
    ∧ (∀ (k : StationId) (role : GaugeRole),
      (((s.station k).gauge role).staleDue = true → (s.stationEntry k).isPresent = true →
        ∃ t, exec (.gaugeStale k role) s = .next t
          ∧ t.station k = (s.station k).setGauge role { (s.station k).gauge role with stale := true, staleDue := false }
          ∧ (∀ j, j ≠ k → t.station j = s.station j)
          ∧ NoticeSent s t .gaugeStale (.station k.1) (packDetail (roleCode role) ((s.stationEntry k).gaugeNo role))
              (((s.station k).gauge role).level.getD 0)
          ∧ SameBut [.stations, .portD, .report] s t)
      ∧ (((s.station k).gauge role).staleDue = false ∨ (s.stationEntry k).isPresent = false →
        exec (.gaugeStale k role) s = .next s))

/-- A dwell that ends puts its channel into IDLE, where it judges: it stays there without work and starts an increment with
work, its queue having room; the gang dwell's end frees the gang for the next turn, which the scan gives to the first member after
the last mover that is not out and has a step to make (a dwell that is not at its end has no expiry: log 1). -/
def Obligations.DwellsEnd : Prop :=
  ∀ (s : State), s.quiet →
    (∀ g : Gate,
      ((s.chan g).state = .dwell (some 0) → s.active.gangOf g = none →
        ∃ t, exec (.dwellExpiry g) s = .next t
          ∧ (s.hasWork g = false → (t.chan g).state = .idle)
          ∧ (∀ goal o target, (s.chan g).governed = some goal → (s.chan g).measured = some o → s.hasWork g = true →
              stepToward (s.gateEntry g) (none, none) o goal = some target → s.portF.room (s.queueFor g) = true →
              (t.chan g).state = .step target (s.gateEntry g).stepTimeout)
          ∧ (∀ h, h ≠ g → t.chan h = s.chan h) ∧ SameBut [.chans, .portF, .report] s t)
      ∧ ((s.chan g).state ≠ .dwell (some 0) → exec (.dwellExpiry g) s = .next s))
    ∧ (∀ c : GangId,
      (∀ d, (s.gang c).dwell = some d → d.remaining = 0 →
        ∃ t, exec (.gangDwellExpiry c) s = .next t ∧ (t.gang c).dwell = none
          ∧ (t.chan d.member).state.isDwell = false ∧ (t.gang c).out = (s.gang c).out
          ∧ (t.gang c).lastMover = (s.gang c).lastMover
          ∧ (∀ (before after : List Gate) (m : Gate) (target : Nat),
              (s.gangEntry c).isPresent = true → (s.gang c).holder = none → (s.gang c).hold = false → s.blockers c = [] →
              (s.chan d.member).state.isDwell = true →
              scanOrder (s.members c) (s.gang c).lastMover = before ++ m :: after →
              let u := (s.setGang c { s.gang c with dwell := none }).enter d.member .idle
              (∀ x ∈ before, (s.gang c).isOut x = true ∨ u.workTarget x = none) → (s.gang c).isOut m = false →
              u.workTarget m = some target →
              (t.gang c).holder = some m
              ∧ (s.active.gangOf m = some c → s.portF.room (s.queueFor m) = true →
                  (t.chan m).state = .step target (s.gateEntry m).stepTimeout))
          ∧ SameBut [.chans, .gangs, .portF, .portD, .report] s t)
      ∧ (∀ (front behind : List Gate) (last : Gate), last ∉ front →
          scanOrder (front ++ last :: behind) (some last) = behind ++ front ++ [last])
      ∧ ((s.gang c).dwell = none ∨ (∃ d, (s.gang c).dwell = some d ∧ d.remaining ≠ 0) →
        exec (.gangDwellExpiry c) s = .next s))

/-- An increment starts when its channel has work that moves it, the turn and room: the frame enters its queue with the next
tag and the channel enters STEP. A full queue leaves the channel in IDLE waiting; without work or turn nothing starts. (That the
command may come at any time, also when none of R11's events has just come, is the model's choice of log 26.) -/
def Obligations.IncrementStarts : Prop :=
  ∀ (s : State) (g : Gate), s.quiet →
    (∀ target, s.workTarget g = some target → s.mayStart g = true →
      (s.portF.room (s.queueFor g) = true →
        ∃ t, exec (.incrementStart g) s = .next t
          ∧ (t.chan g).state = .step target (s.gateEntry g).stepTimeout
          ∧ (t.chan g).tag = ((s.chan g).tag + 1) % 65536 ∧ (t.chan g).start = (s.chan g).measured
          ∧ (t.chan g).dwellDir = some (if (s.chan g).measured.getD 0 < target then .up else .down)
          ∧ (t.chan g).governed = (s.chan g).governed ∧ (t.chan g).measured = (s.chan g).measured
          ∧ (∀ h, h ≠ g → t.chan h = s.chan h)
          ∧ (s.queueFor g = .urgent → t.portF.routine = s.portF.routine ∧ t.portF.urgent
              = s.portF.urgent ++ [incrementFrame g target (((s.chan g).tag + 1) % 65536)])
          ∧ (s.queueFor g = .routine → t.portF.urgent = s.portF.urgent ∧ t.portF.routine
              = s.portF.routine ++ [incrementFrame g target (((s.chan g).tag + 1) % 65536)])
          ∧ SameBut [.chans, .portF, .report] s t)
      ∧ (s.portF.room (s.queueFor g) = false →
        ∃ t, exec (.incrementStart g) s = .next t ∧ g ∈ (t.portF.waiting (s.queueFor g)).settled
          ∧ SameBut [.portF] s t))
    ∧ (s.workTarget g = none ∨ s.mayStart g = false →
      ∃ t, exec (.incrementStart g) s = .next t ∧ SameBut [.portF] s t
        ∧ t.portF.urgent = s.portF.urgent ∧ t.portF.routine = s.portF.routine)
    ∧ (∀ target tag, incrementFrame g target tag
        = { dest := 255#8, typ := 0x10#8,
            payload := [255#8, byteOf g.1, byteOf (target / 256), byteOf target, 0#8, byteOf (tag / 256), byteOf tag] })

/-- The step target moves the gate toward its governed target, by at least 1 su, by no more than the step size and no farther
than the target and the gang's cap or floor. -/
def Obligations.StepTargetKeepsItsBounds : Prop :=
  ∀ (e : GateEntry) (cap : Option Nat) (floor : Option Int) (o goal u : Nat),
    stepToward e (cap, floor) o goal = some u →
    (o < goal → o < u ∧ u ≤ goal ∧ u ≤ o + e.stepUp ∧ (∀ c, cap = some c → u ≤ c)
        ∧ (u = goal ∨ u = o + e.stepUp ∨ cap = some u))
    ∧ (goal ≤ o → u < o ∧ goal ≤ u ∧ o ≤ u + e.stepDown ∧ (∀ f, floor = some f → f ≤ (u : Int))
        ∧ (u = goal ∨ u + e.stepDown = o ∨ floor = some (u : Int)))

/-! ### Stations -/

/-- A GOOD or SUSPECT GAUGE frame updates the record that names the gauge, a headwater one with the storage estimate, sends
GAUGE_FRESH when the record was stale, and is forwarded, or dropped and counted when UP_FWD is full; a BAD one, or one no present
station names, is only forwarded. (A payload no line frame can hold is damaged: log 17.) -/
def Obligations.GaugeFrameUpdatesItsRecord : Prop :=
  ∀ (s : State) (dest : Byte) (p : List Byte), s.quiet →
    (∀ (q : Quality) (k : StationId), p.length = 4 → byteAt p 0 ≤ 15 → readQuality (byteAt p 3) = some q →
      (s.active.stationOfGauge .headwater (byteAt p 0) = some k →
        ∃ t, exec (.gauge dest p) s = .next t
          ∧ (t.station k).hw = { level := some (fieldAt p 1 2), age := 0, stale := false, staleDue := false }
          ∧ (t.station k).hwQuality = some q ∧ (t.station k).storage = storageOf (s.stationEntry k) (fieldAt p 1 2)
          ∧ (t.station k).storageValid = true
          ∧ ((s.station k).hw.stale = true →
              Noticed s t .gaugeFresh (.station k.1) (packDetail 0 (byteAt p 0 * 16 + q.code)) (fieldAt p 1 2))
          ∧ (∀ j, j ≠ k → t.station j = s.station j)
          ∧ t.portF.counts = s.portF.counts.addReceived
          ∧ (s.portD.fwd.length < 64 →
              t.portD.fwd = s.portD.fwd ++ [{ dest := dest, typ := typGauge, payload := p }] ∧ t.portD.counts = s.portD.counts)
          ∧ (64 ≤ s.portD.fwd.length → t.portD.fwd = s.portD.fwd ∧ t.portD.counts = s.portD.counts.addDropped)
          ∧ SameBut [.stations, .chans, .gangs, .portF, .portD, .report] s t)
      ∧ (s.active.stationOfGauge .headwater (byteAt p 0) = none →
          s.active.stationOfGauge .tailwater (byteAt p 0) = some k →
        ∃ t, exec (.gauge dest p) s = .next t
          ∧ t.station k = { s.station k with
              tw := { level := some (fieldAt p 1 2), age := 0, stale := false, staleDue := false } }
          ∧ ((s.station k).tw.stale = true →
              Noticed s t .gaugeFresh (.station k.1) (packDetail 1 (byteAt p 0 * 16 + q.code)) (fieldAt p 1 2))
          ∧ ((s.station k).tw.stale = false → t.portD.own = s.portD.own)
          ∧ (∀ j, j ≠ k → t.station j = s.station j)
          ∧ t.portF = { s.portF with counts := s.portF.counts.addReceived }
          ∧ (s.portD.fwd.length < 64 →
              t.portD.fwd = s.portD.fwd ++ [{ dest := dest, typ := typGauge, payload := p }] ∧ t.portD.counts = s.portD.counts)
          ∧ (64 ≤ s.portD.fwd.length → t.portD.fwd = s.portD.fwd ∧ t.portD.counts = s.portD.counts.addDropped)
          ∧ SameBut [.stations, .portF, .portD, .report] s t))
    ∧ (p.length = 4 → readQuality (byteAt p 3) = none ∨ 15 < byteAt p 0
        ∨ (s.active.stationOfGauge .headwater (byteAt p 0) = none
            ∧ s.active.stationOfGauge .tailwater (byteAt p 0) = none) →
      exec (.gauge dest p) s
        = .next ((s.countF PortCounts.addReceived).forwardUp { dest := dest, typ := typGauge, payload := p }))
    ∧ (p.length ≠ 4 → p.length ≤ 56 →
      exec (.gauge dest p) s
        = .next (((s.countF PortCounts.addReceived).countF PortCounts.addDamaged).forwardUp
            { dest := dest, typ := typGauge, payload := p }))
    ∧ (56 < p.length → exec (.gauge dest p) s = .next (s.countF PortCounts.addDamaged))

/-- A headwater frame that crosses a present mark in its direction is captured with the unread and overwrite marks, and
MARK_CROSSED is sent; a rising crossing raises the stage at least to the mark's floor; no other crossing touches the mark.
With no previous level held no crossing is judged. -/
def Obligations.CrossingsAreCaptured : Prop :=
  ∀ (s : State) (dest : Byte) (p : List Byte) (q : Quality) (k : StationId) (i : Fin 2) (level : Nat),
    s.quiet → p.length = 4 → byteAt p 0 ≤ 15 → readQuality (byteAt p 3) = some q →
    s.active.stationOfGauge .headwater (byteAt p 0) = some k → level = fieldAt p 1 2 →
    let m := (s.stationEntry k).markAt i
    let old := (s.station k).markAt i
    let overwrite := old.overwrite || (old.capture.isSome && old.unread)
    ∃ t, exec (.gauge dest p) s = .next t
      ∧ (∀ prev, (s.station k).hw.level = some prev →
        let rises := prev < m.level ∧ m.level ≤ level
        let falls := m.level ≤ prev ∧ level < m.level
        (m.isPresent = true → m.countsRising = true → rises →
          (t.station k).markAt i
            = { capture := some { time := s.now, level := level, rising := true }, unread := true, overwrite := overwrite }
          ∧ (∀ f, m.floor = some f → f.code ≤ (t.station k).stage.code)
          ∧ (s.portD.own.length + s.portD.reserved + 4 ≤ 32 →
              ∃ gap, OwnFrame.notice { kind := .markCrossed, subject := .station k.1, time := s.now,
                                       detail := packDetail i.1 (16 + overwrite.toNat), value := level, gap := gap }
                ∈ t.portD.own))
        ∧ (m.isPresent = true → m.countsFalling = true → falls →
          (t.station k).markAt i
            = { capture := some { time := s.now, level := level, rising := false }, unread := true, overwrite := overwrite }
          ∧ (s.portD.own.length + s.portD.reserved + 4 ≤ 32 →
              ∃ gap, OwnFrame.notice { kind := .markCrossed, subject := .station k.1, time := s.now,
                                       detail := packDetail i.1 (32 + overwrite.toNat), value := level, gap := gap }
                ∈ t.portD.own))
        ∧ (m.isPresent = false ∨ (m.countsRising = false ∧ rises) ∨ (m.countsFalling = false ∧ falls)
              ∨ (¬ rises ∧ ¬ falls) →
            (t.station k).markAt i = old))
      ∧ ((s.station k).hw.level = none →
          (t.station k).markAt i = old ∧ (t.station k).stage = (s.station k).stage
          ∧ ∀ n, OwnFrame.notice n ∈ t.portD.own → n.kind = .markCrossed → OwnFrame.notice n ∈ s.portD.own)

/-! ### Silence -/

/-- The first silence expiry takes the station to level 1 with its timer restarted: channels in IDLE or DWELL enter the
silence hold, those in STEP are marked, those in HOLD, WAIT, LOCAL or FAULT and those of other stations keep their state (in
HOLD with cause GANG while a member holds the gang), and every target, source and clamp mark is kept (an expiry that is not
due has no effect: log 1). -/
def Obligations.FirstSilenceExpiryHolds : Prop :=
  ∀ (s : State) (k : StationId), s.quiet →
    (s.silenceDue k .l0 = true →
      ∃ t, exec (.firstSilenceExpiry k) s = .next t
        ∧ t.silenceOf k = { level := .l1, timer := some (s.stationEntry k).silencePeriod }
        ∧ (∀ j, j ≠ k → t.silenceOf j = s.silenceOf j)
        ∧ (∀ g, s.active.boundTo k g = true →
            ((s.chan g).state = .idle ∨ (s.chan g).state.isDwell = true → (t.chan g).state = .hold .silence)
            ∧ ((s.chan g).state.isStep = true →
                (t.chan g).state = (s.chan g).state ∧ (t.chan g).silencePending = true)
            ∧ ((s.chan g).state = .wait ∨ (s.chan g).state = .localHand ∨ (∃ c, (s.chan g).state = .fault c)
                ∨ (∃ c, (s.chan g).state = .hold c ∧ (c = .gang → ∀ n, g ∈ s.members n → s.blockers n ≠ [])) →
                t.chan g = s.chan g))
        ∧ (StoreSound s → ∀ g, s.active.boundTo k g = false → t.chan g = s.chan g)
        ∧ (∀ g, (t.chan g).governed = (s.chan g).governed ∧ (t.chan g).source = (s.chan g).source
            ∧ (t.chan g).clamp = (s.chan g).clamp ∧ (t.chan g).measured = (s.chan g).measured)
        ∧ Noticed s t .silenceHold (.station k.1)
            (packDetail ((s.active.gatesOf k).filter fun g => (s.chan g).state == .idle || (s.chan g).state.isDwell).length
              ((s.active.gatesOf k).filter fun g => (s.chan g).state.isStep).length) (s.stationEntry k).silencePeriod
        ∧ SameBut [.silence, .chans, .gangs, .portF, .portD, .report] s t)
    ∧ (s.silenceDue k .l0 = false → exec (.firstSilenceExpiry k) s = .next s)

/-- The second silence expiry takes the station to level 2 with its timer stopped: the channels that fall back take a request
of source FALLBACK, the first of them with the window-clamped target, and no other channel's request changes. (Which channels
fall back is judged from their states at the start of the event, the model's choice of log 8; an expiry that is not due has no
effect: log 1.) -/
def Obligations.SecondSilenceExpiryFallsBack : Prop :=
  ∀ (s : State) (k : StationId), s.quiet →
    (s.silenceDue k .l1 = true →
      ∃ t, exec (.secondSilenceExpiry k) s = .next t ∧ t.silenceOf k = { level := .l2, timer := none }
        ∧ (∀ j, j ≠ k → t.silenceOf j = s.silenceOf j)
        ∧ (∀ g, s.active.boundTo k g = true → (s.chan g).fallsBack = true → (s.gateEntry g).fallback? ≠ none →
            (t.chan g).source = .fallback ∧ (t.chan g).silencePending = false)
        ∧ (∀ g target, s.active.boundTo k g = true → (s.chan g).fallsBack = true → (s.gateEntry g).fallback? = some target →
            (∀ h : Gate, h.1 < g.1 → s.active.boundTo k h = true →
              (s.chan h).fallsBack = false ∨ (s.gateEntry h).fallback? = none) →
            (t.chan g).governed = some (s.windowClamp k g target false).1
            ∧ (t.chan g).clamp = (s.windowClamp k g target false).2)
        ∧ (∀ g, s.active.boundTo k g = false ∨ (s.chan g).fallsBack = false ∨ (s.gateEntry g).fallback? = none →
            (t.chan g).governed = (s.chan g).governed ∧ (t.chan g).source = (s.chan g).source
            ∧ (t.chan g).clamp = (s.chan g).clamp)
        ∧ SameBut [.silence, .chans, .gangs, .portF, .portD, .report] s t)
    ∧ (s.silenceDue k .l1 = false → exec (.secondSilenceExpiry k) s = .next s)

/-- RESUME_STATION returns the station to level 0 from either level, turning the sources FALLBACK of level 2 into DISPATCH;
at level 0 it restarts the timer alone; an absent station refuses it and a number above 5 is a bad argument. (The issuer's
byte may be one above 63: log 32.) -/
def Obligations.ResumeStationEndsSilence : Prop :=
  ∀ (s : State) (p : List Byte) (b : Byte), s.ready → s.asks p .resumeStation → reqArgs p = [b] →
    (5 < b.toNat → exec .resumeStation s = .next (s.answered p .badArgument []))
    ∧ ∀ k : StationId, b.toNat = k.1 →
      ((s.stationEntry k).isPresent = false → exec .resumeStation s = .next (s.answered p .refusedState []))
      ∧ ((s.stationEntry k).isPresent = true → (s.silenceOf k).level = .l0 →
          (0 < (s.stationEntry k).silenceCount →
            exec .resumeStation s = .next ((s.setSilence k
              { level := .l0, timer := some (s.stationEntry k).silencePeriod }).answered p .done []))
          ∧ ((s.stationEntry k).silenceCount = 0 → exec .resumeStation s = .next (s.answered p .done [])))
      ∧ ((s.stationEntry k).isPresent = true → (s.silenceOf k).level ≠ .l0 →
        ∃ t, exec .resumeStation s = .next t ∧ Replied s t p .done []
          ∧ t.silenceOf k = { level := .l0, timer :=
              if 0 < (s.stationEntry k).silenceCount then some (s.stationEntry k).silencePeriod else none }
          ∧ (∀ g, s.active.boundTo k g = true → (t.chan g).state ≠ .hold .silence ∧ (t.chan g).silencePending = false)
          ∧ (∀ g, (t.chan g).source = if s.active.boundTo k g = true ∧ (s.silenceOf k).level = .l2
                ∧ (s.chan g).source = .fallback then .dispatch else (s.chan g).source)
          ∧ (∀ g, (t.chan g).governed = (s.chan g).governed ∧ (t.chan g).clamp = (s.chan g).clamp)
          ∧ SameBut [.silence, .chans, .gangs, .portF, .portD, .report, .inbox, .told] s t)

/-! ### Time -/

/-- Each second tick advances the counters by one second with every carry made in that tick; the passage of the second counter
from 59 to 0 makes a model minute's work owed (that it is owed until its own command takes it is the model's choice of log 4). -/
def Obligations.SecondTickAdvancesTheClock : Prop :=
  ∀ s : State, s.quiet → QueuesFit s → ∃ t, exec .secondTick s = .next t
    ∧ (s.clock.second < 59 → t.clock = { s.clock with second := s.clock.second + 1 })
    ∧ (s.clock.second = 59 → s.clock.minute < 59 → t.clock = { s.clock with second := 0, minute := s.clock.minute + 1 })
    ∧ (s.clock.second = 59 → s.clock.minute = 59 → s.clock.hour < 23 →
        t.clock = { s.clock with second := 0, minute := 0, hour := s.clock.hour + 1 })
    ∧ (s.clock.second = 59 → s.clock.minute = 59 → s.clock.hour = 23 →
        s.clock.day < (if s.clock.year % 4 = 0 then 366 else 365) →
        t.clock = { s.clock with second := 0, minute := 0, hour := 0, day := s.clock.day + 1 })
    ∧ (s.clock.second = 59 → s.clock.minute = 59 → s.clock.hour = 23 →
        s.clock.day = (if s.clock.year % 4 = 0 then 366 else 365) →
        (s.clock.year < 99 →
          t.clock = { year := s.clock.year + 1, day := 1, hour := 0, minute := 0, second := 0 })
        ∧ (s.clock.year = 99 → t.clock = { year := 0, day := 1, hour := 0, minute := 0, second := 0 }))
    ∧ (s.clock.second = 59 → t.minuteDue = MinuteDue.all)

/-- A second tick with nothing due and untaken from before (log 3) counts every timer down by one and every age of a
held opening or level up by one, and marks what reached its limit; nothing else but the clock changes. -/
def Obligations.SecondTickCountsEveryTimer : Prop :=
  ∀ s : State, s.quiet → (∀ e : DueEvent, s.isDue e = false) →
    ∃ t, exec .secondTick s = .next t
      ∧ (∀ g,
        ((s.chan g).measured ≠ none → (s.chan g).state ≠ .unbound →
          (t.chan g).age = (if (s.chan g).age < 65535 then (s.chan g).age + 1 else (s.chan g).age)
          ∧ ((t.chan g).staleDue = true ↔ (s.chan g).staleDue = true
              ∨ ((s.chan g).stale = false ∧ (s.gateEntry g).staleLimit ≤ (t.chan g).age)))
        ∧ ((s.chan g).measured = none →
            (t.chan g).age = (s.chan g).age ∧ (t.chan g).staleDue = (s.chan g).staleDue)
        ∧ (∀ x n, (s.chan g).state = .step x n → (t.chan g).state = .step x (n - 1))
        ∧ (∀ n, (s.chan g).state = .dwell (some n) → (t.chan g).state = .dwell (some (n - 1)))
        ∧ ((s.chan g).state.isStep = false → (∀ n, (s.chan g).state ≠ .dwell (some n)) →
            (t.chan g).state = (s.chan g).state)
        ∧ (t.chan g).measured = (s.chan g).measured ∧ (t.chan g).governed = (s.chan g).governed
        ∧ (t.chan g).source = (s.chan g).source ∧ (t.chan g).tag = (s.chan g).tag
        ∧ (t.chan g).stale = (s.chan g).stale ∧ (t.chan g).clamp = (s.chan g).clamp
        ∧ (t.chan g).start = (s.chan g).start ∧ (t.chan g).dwellDir = (s.chan g).dwellDir
        ∧ (t.chan g).silencePending = (s.chan g).silencePending)
      ∧ (∀ k role,
        (((s.station k).gauge role).level ≠ none →
          ((t.station k).gauge role).level = ((s.station k).gauge role).level
          ∧ ((t.station k).gauge role).stale = ((s.station k).gauge role).stale
          ∧ ((t.station k).gauge role).age
            = (if ((s.station k).gauge role).age < 65535 then ((s.station k).gauge role).age + 1
                else ((s.station k).gauge role).age)
          ∧ (((t.station k).gauge role).staleDue = true ↔ ((s.station k).gauge role).staleDue = true
              ∨ (((s.station k).gauge role).stale = false
                  ∧ (s.stationEntry k).staleLimit ≤ ((t.station k).gauge role).age)))
        ∧ (((s.station k).gauge role).level = none → (t.station k).gauge role = (s.station k).gauge role)
        ∧ t.station k = { s.station k with hw := (t.station k).hw, tw := (t.station k).tw })
      ∧ (∀ c, t.gang c = { s.gang c with
          dwell := (s.gang c).dwell.map fun d => { d with remaining := d.remaining - 1 } })
      ∧ (∀ k, t.silenceOf k = { s.silenceOf k with timer := (s.silenceOf k).timer.map fun n => n - 1 })
      ∧ (s.clock.second ≠ 59 → t.minuteDue = s.minuteDue)
      ∧ SameBut [.chans, .stations, .gangs, .silence, .clock, .minuteDue] s t

/-- The outflow part of an owed minute sets every present station's outflow to the discharge of its bound gates at their
measured openings; with nothing owed a minute does nothing (the parts of a minute: log 4). -/
def Obligations.MinuteRatesTheOutflow : Prop :=
  ∀ s : State, s.quiet →
    (s.minuteDue.outflow = true →
      ∃ t, exec (.modelMinute .outflow) s = .next t
        ∧ (∀ k, (s.stationEntry k).isPresent = true →
            t.station k = { s.station k with
              qOut := ((s.active.gatesOf k).map fun g => match (s.chan g).measured with
                | some o => s.rate g (s.headOf k) o
                | none => 0).sum
              positioned := (s.active.gatesOf k).all fun g => (s.chan g).measured.isSome })
        ∧ (∀ k, (s.stationEntry k).isPresent = false → t.station k = s.station k)
        ∧ t.minuteDue = { s.minuteDue with outflow := false }
        ∧ SameBut [.stations, .minuteDue] s t)
    ∧ (s.minuteDue.outflow = false → exec (.modelMinute .outflow) s = .next s)
    ∧ (s.minuteDue = MinuteDue.none → ∀ part, exec (.modelMinute part) s = .next s)

/-- The balance part of an owed minute advances every present reach by the upper station's outflow and takes the balance of
station 0 and of each present station a reach delivers to, when its storage estimate is valid: storage, prediction, stage, and the
window on a stage change and in SURCHARGE (the parts of a minute: log 4). -/
def Obligations.MinuteBalancesEveryStation : Prop :=
  ∀ (s : State), s.quiet → QueuesFit s → s.minuteDue.outflow = false → s.minuteDue.balance = allFin 6 →
    ∃ t, exec (.modelMinute .balance) s = .next t
      ∧ t.minuteDue = { s.minuteDue with balance := [] }
      ∧ (∀ k : ReachId, (s.reachEntry k).isPresent = true →
          ((s.reach k).unseeded = false →
            (t.reach k).line = (appendMinute (dropFront (s.reach k).line) (s.station (upperOf k)).qOut).1
            ∧ (t.reach k).unseeded = false
            ∧ (t.reach k).coarse = (if (appendMinute (dropFront (s.reach k).line) (s.station (upperOf k)).qOut).2
                then countUp (s.reach k).coarse else (s.reach k).coarse))
          ∧ ((s.reach k).unseeded = true → (s.station (upperOf k)).positioned = true →
            t.reach k = { s.reach k with
              line := [{ flow := (s.station (upperOf k)).qOut, minutes := (s.reachEntry k).tau }], unseeded := false })
          ∧ ((s.reach k).unseeded = true → (s.station (upperOf k)).positioned = false → t.reach k = s.reach k))
      ∧ (∀ (k : StationId) (arrival ahead : Nat), (s.stationEntry k).isPresent = true →
          (k = 0 ∧ arrival = 0 ∧ ahead = 0)
            ∨ (∃ r : ReachId, lowerOf r = k ∧ (s.reachEntry r).isPresent = true ∧ arrival = nextArrival (s.reach r).line
                ∧ ahead = aheadFor (t.reach r).line (s.stationEntry k).horizon (s.reachEntry r).tau
                    (s.station (upperOf r)).qOut) →
          (t.station k).arrival = arrival
          ∧ ((s.station k).storageValid = true →
              ((t.station k).storage : Int)
                = max 0 (min 4294967295 (((s.station k).storage : Int)
                    + 6 * ((arrival : Int) + (s.station k).qLocal - (s.station k).qOut)))
              ∧ (t.station k).sPred = some (max 0 (min 4294967295 (((t.station k).storage : Int)
                    + 6 * ((ahead : Int) + ((s.stationEntry k).horizon : Int)
                        * (((s.station k).qLocal : Int) - ((s.station k).qOut : Int)))))).toNat
              ∧ ∀ pred, (t.station k).sPred = some pred →
                  (t.station k).stage = (s.stationEntry k).nextStage (s.station k).stage pred (s.station k).hw.level)
          ∧ ((s.station k).storageValid = false →
              (t.station k).storage = (s.station k).storage ∧ (t.station k).sPred = (s.station k).sPred
              ∧ (t.station k).stage = (s.station k).stage)
          ∧ ((t.station k).stage ≠ (s.station k).stage ∨ (t.station k).stage = .surcharge →
              ((t.station k).qmin, (t.station k).qmax)
                = windowFor (s.stationEntry k) (t.station k).stage arrival (s.station k).qLocal)
          ∧ ((t.station k).stage = (s.station k).stage → (t.station k).stage ≠ .surcharge →
              (t.station k).qmin = (s.station k).qmin ∧ (t.station k).qmax = (s.station k).qmax)
          ∧ (t.station k).qLocal = (s.station k).qLocal ∧ (t.station k).qOut = (s.station k).qOut
          ∧ (t.station k).hw = (s.station k).hw ∧ (t.station k).mark0 = (s.station k).mark0
          ∧ (t.station k).mark1 = (s.station k).mark1)
      ∧ SameBut [.stations, .reaches, .chans, .gangs, .portF, .portD, .report, .minuteDue, .freeCount] s t

/-- A minute raises a stage at once to its candidate, lowers it by one exactly when the prediction lies below the threshold less
the hysteresis with no floor against it and no higher candidate; and a stage's window never crosses for a present station of the
ACTIVE plan. -/
def Obligations.StageAndWindow : Prop :=
  (∀ (e : StationEntry) (stage next : Stage) (pred : Nat) (level : Option Nat),
    e.nextStage stage pred level = next →
    (∀ st : Stage, st ≠ .normal → e.threshold st ≤ pred → e.sWatch < e.sPre → e.sPre < e.sSur → st.code ≤ next.code)
    ∧ ((e.activeFloor level).code ≤ next.code)
    ∧ (next.code < stage.code → next = stage.pred ∧ pred + e.hysteresis < e.threshold stage
        ∧ (e.activeFloor level).code < stage.code)
    ∧ (stage ≠ .normal → pred + e.hysteresis < e.threshold stage → (e.activeFloor level).code < stage.code →
        (∀ st : Stage, st ≠ .normal → e.threshold st ≤ pred → st.code ≤ stage.code) → next = stage.pred)
    ∧ (stage.code < next.code → (next ≠ .normal ∧ e.threshold next ≤ pred) ∨ next = e.activeFloor level))
  ∧ ∀ (s : State) (k : StationId) (stage : Stage) (arrival inflow : Nat), StoreSound s →
    (s.stationEntry k).isPresent = true →
    (windowFor (s.stationEntry k) stage arrival inflow).1 ≤ (windowFor (s.stationEntry k) stage arrival inflow).2

/-- The minute appended to a reach line: it extends the youngest parcel, becomes a new one, or is folded in. -/
def Obligations.AppendTakesTheFirstCaseThatApplies : Prop :=
  ∀ (line : List Parcel) (q : Nat),
    (∀ (older : List Parcel) (y : Parcel), line = older ++ [y] → y.flow = q → y.minutes < 1440 →
      appendMinute line q = (older ++ [{ flow := y.flow, minutes := y.minutes + 1 }], false))
    ∧ ((∀ (older : List Parcel) (y : Parcel), line = older ++ [y] → ¬ (y.flow = q ∧ y.minutes < 1440)) →
      line.length < 96 → appendMinute line q = (line ++ [{ flow := q, minutes := 1 }], false))
    ∧ (∀ (older : List Parcel) (y : Parcel), line = older ++ [y] → ¬ (y.flow = q ∧ y.minutes < 1440) →
      96 ≤ line.length →
      appendMinute line q
        = (older ++ [{ flow := (y.flow * y.minutes + q) / (y.minutes + 1), minutes := y.minutes + 1 }], true))

/-- A line keeps account of the water: a minute changes its volume by what is appended less what arrives less what a fold
drops, at most the youngest parcel's minutes; and the look-ahead sum is the flow of the first minutes of the line. -/
def Obligations.LineConservesAndLooksAhead : Prop :=
  (∀ (line : List Parcel) (q : Nat), (∀ p ∈ line, 1 ≤ p.minutes) → line ≠ [] →
    ∃ dropped, lineVolume (appendMinute (dropFront line) q).1 + nextArrival line + dropped = lineVolume line + q
      ∧ lineMinutes (appendMinute (dropFront line) q).1 = lineMinutes line
      ∧ ((appendMinute (dropFront line) q).2 = false → dropped = 0)
      ∧ ∀ y, (dropFront line).getLast? = some y → dropped ≤ y.minutes)
  ∧ (∀ (line : List Parcel) (h : Nat),
      lookAhead line h = ((line.flatMap fun p => List.replicate p.minutes p.flow).take h).sum)
  ∧ (∀ (line : List Parcel) (h tau q : Nat), aheadFor line h tau q = lookAhead line h + (h - tau) * q)

/-- The schedule part of an owed minute fires the armed entries that match: a ONCE entry is disarmed, and the request of a
single firing is discarded or window-clamped and taken with source SCHEDULE (the parts of a minute: log 4). -/
def Obligations.ScheduleFiresMatchingEntries : Prop :=
  ∀ (s : State), s.quiet → s.minuteDue.schedule = true →
    ∃ t, exec (.modelMinute .schedule) s = .next t
      ∧ t.minuteDue = { s.minuteDue with schedule := false }
      ∧ (∀ n, t.armed.get n = (s.armed.get n && !(scheduleMatches (s.active.sched.get n) s.clock
            && (s.active.sched.get n).once)))
      ∧ ((∀ n, s.armed.get n = true → scheduleMatches (s.active.sched.get n) s.clock = false) →
          t.chans = s.chans ∧ t.portD = s.portD)
      ∧ (∀ n (g : Gate), s.armed.get n = true → scheduleMatches (s.active.sched.get n) s.clock = true →
          (∀ m, m ≠ n → s.armed.get m = true → scheduleMatches (s.active.sched.get m) s.clock = false) →
          (s.active.sched.get n).gate = g.1 →
          Noticed s t .scheduleFired (.gate g.1)
            (packDetail n.1 ((s.active.sched.get n).mode * 16 + (s.active.sched.get n).once.toNat))
            (s.active.sched.get n).opening
          ∧ (s.active.bound g = false ∨ s.silenceLevelOf g ≠ .l0 ∨ (s.chan g).state.takes = false →
              t.chans = s.chans)
          ∧ (∀ k : StationId, s.active.boundTo k g = true → s.silenceLevelOf g = .l0 → (s.chan g).state.takes = true →
              (t.chan g).source = .schedule
              ∧ (t.chan g).governed = some (s.windowClamp k g (s.active.sched.get n).opening false).1
              ∧ (t.chan g).clamp = (s.windowClamp k g (s.active.sched.get n).opening false).2
              ∧ ∀ h, h ≠ g → (t.chan h).governed = (s.chan h).governed ∧ (t.chan h).source = (s.chan h).source))
      ∧ SameBut [.armed, .chans, .gangs, .portF, .portD, .report, .minuteDue] s t

/-! ### Management requests -/

/-- A request enters the inbox when it has room and is taken at once when UP_OWN has room (a SET_CLOCK behind the minute
still owed: log 4); one without payload or finding the inbox full is dropped and counted. -/
def Obligations.RequestsEnterTheInbox : Prop :=
  ∀ (s : State) (dest : Byte) (p : List Byte), s.quiet → s.node = some dest → p.length ≤ 56 →
    (p = [] ∨ 4 ≤ s.inbox.length →
      exec (.mgmtReq dest p) s = .next ((s.countD PortCounts.addReceived).countD PortCounts.addDropped))
    ∧ (p ≠ [] → s.inbox.length < 4 → s.ownRoom = false →
      exec (.mgmtReq dest p) s = .next { s.countD PortCounts.addReceived with inbox := s.inbox ++ [p] })
    ∧ (p ≠ [] → s.inbox.length < 4 →
      exec (.mgmtReq dest p) s
        = .next (State.serve (s.inbox.length + 1) { s.countD PortCounts.addReceived with inbox := s.inbox ++ [p] }))
    ∧ (p ≠ [] → s.inbox = [] → s.ownRoom = true → (readRequest p = .setClock → s.minuteOwed = false) →
      ∃ t, exec (.mgmtReq dest p) s = .next t ∧ t.inbox = []
        ∧ (readRequest p ≠ .restart → t.portD.counts = s.portD.counts.addReceived
            ∧ ∃ status results, t.portD.own.getLast? = some (replyTo p status results)))

/-- The Responder answers a request without MANAGE REFUSED_RIGHTS, one of no kind or of a wrong argument length BAD_ARGUMENT
(that actions of a PLAN_CONTROL with a bit above 3 are of no kind is the model's choice of log 22), and any request not
answered DONE changes nothing but the inbox and its reply; it goes on with the requests behind the one taken, and the
transmissions due begin between them (log 5). Without an owed minute this holds of a SET_CLOCK too (log 4). A command whose
row the oldest request is not of does nothing (the model's choice of log 7). (The issuer's byte may be one above 63: log
32.) -/
def Obligations.RefusedRequestsChangeNothing : Prop :=
  (∀ (s : State) (p : List Byte), s.ready → s.inbox = [p] → s.ownRoom = true →
    s.active.manages (reqIssuer p).toNat = false →
    exec (readRequest p).command s = .next (s.answered p .refusedRights []))
  ∧ (∀ (s : State) (p : List Byte) (r : Request), s.ready → s.asks p r → (r = .setClock → s.minuteOwed = false) →
    ∃ t status results, exec r.command s = .next t
      ∧ (r ≠ .restart → Replied s t p status results)
      ∧ (status ≠ .done → t = s.answered p status results)
      ∧ (r.argsFit (reqArgs p).length = false → status = .badArgument ∧ results = []))
  ∧ (∀ (s : State) (p : List Byte), s.ready → s.asks p .badKind →
    exec .mgmtBadKind s = .next (s.answered p .badArgument []))
  ∧ (∀ (s : State) (r : Request), s.ready →
    (s.inbox = [] ∨ s.ownRoom = false → exec r.command s = .next s)
    ∧ (∀ p, s.inbox.head? = some p → r.command ≠ (readRequest p).command →
      ¬ (r = .copy ∧ readRequest p = .abandonCopy) → exec r.command s = .next s)
    ∧ ∀ p ps, s.inbox = p :: ps → s.ownRoom = true → r = readRequest p → (r = .setClock → s.minuteOwed = false) →
      exec r.command s = .next (State.serve ps.length (s.respond p).betweenRequests))

/-- READ_ENTRY returns the place asked for as it stands, the header with the Plan Store's own state and an ACTIVE schedule
entry with its armed mark (that the two flags of the header and the armed mark are each a byte of 1 or 0 is the model's
choice of log 28). (The issuer's byte may be one above 63: log 32.) -/
def Obligations.ReadEntryReturnsThePlace : Prop :=
  ∀ (s : State) (p : List Byte) (bank table index part : Byte), s.ready → s.asks p .readEntry →
    reqArgs p = [bank, table, index, part] →
    (∀ place, planPlace table.toNat index.toNat part.toNat = some place →
      (bank.toNat = 0 → exec .readEntry s = .next (s.answered p .done
        ([table, index, part] ++ s.active.read place ++ match place with
          | .header => [byteOf s.store.run.isSome.toNat] ++ beBytes 2 (s.store.run.getD 0)
              ++ [byteOf s.store.writing.toNat]
          | .sched n => [byteOf (s.armed.get n).toNat]
          | _ => [])))
      ∧ (bank.toNat = 1 → exec .readEntry s = .next (s.answered p .done
        ([table, index, part] ++ s.store.planPending.read place ++ match place with
          | .header => [byteOf s.store.run.isSome.toNat] ++ beBytes 2 (s.store.run.getD 0)
              ++ [byteOf s.store.writing.toNat]
          | _ => []))))
    ∧ (planPlace table.toNat index.toNat part.toNat = none ∨ 1 < bank.toNat →
      exec .readEntry s = .next (s.answered p .badArgument []))

/-- OPEN_LOAD opens a run of 1 to 1024 entries; WRITE_ENTRY writes one place into PENDING and counts it off, the last
closing the run. (That a bad argument is judged before the open run is the model's reading, log 24.) (The issuer's byte may
be one above 63: log 32.) -/
def Obligations.LoadRunWritesPending : Prop :=
  (∀ (s : State) (p : List Byte), s.ready → s.asks p .openLoad → (reqArgs p).length = 2 →
    (1 ≤ fieldAt (reqArgs p) 0 2 → fieldAt (reqArgs p) 0 2 ≤ 1024 →
      (s.store.run = none →
        exec .openLoad s
          = .next ((s.setStore { s.store with run := some (fieldAt (reqArgs p) 0 2) }).answered p .done []))
      ∧ (s.store.run ≠ none → exec .openLoad s = .next (s.answered p .refusedState [])))
    ∧ (fieldAt (reqArgs p) 0 2 = 0 ∨ 1024 < fieldAt (reqArgs p) 0 2 →
      exec .openLoad s = .next (s.answered p .badArgument [])))
  ∧ (∀ (s : State) (p : List Byte) (table index part : Byte) (entry : List Byte), s.ready → s.asks p .writeEntry →
    reqArgs p = [table, index, part] ++ entry →
    (planPlace table.toNat index.toNat part.toNat = none → exec .writeEntry s = .next (s.answered p .badArgument []))
    ∧ ∀ place, planPlace table.toNat index.toNat part.toNat = some place →
      (entry.length ≠ place.size → exec .writeEntry s = .next (s.answered p .badArgument []))
      ∧ (entry.length = place.size →
        (s.store.run = none → exec .writeEntry s = .next (s.answered p .refusedState []))
        ∧ ∀ n, s.store.run = some n → 1 ≤ n →
          exec .writeEntry s = .next ((s.setStore { s.store with
            planPending := s.store.planPending.write place entry
            run := if n = 1 then none else some (n - 1) }).answered p .done (beBytes 2 (n - 1)))))

/-- A place written into a plan reads back as written and leaves every other place as it was, but that part 0 of a station or
surface entry makes its points or node discharges 0. -/
def Obligations.WrittenEntriesReadBack : Prop :=
  ∀ (plan : Plan) (place : PlanPlace) (entry : List Byte), entry.length = place.size →
    (∀ k half, place = .points k half → half ≤ 1) →
    (plan.write place entry).read place = entry
    ∧ (∀ other : PlanPlace, other ≠ place → (∀ k half, other = .points k half → half ≤ 1) →
        (∀ k half, place = .station k → other ≠ .points k half) → (∀ f j, place = .surface f → other ≠ .row f j) →
        (plan.write place entry).read other = plan.read other)
    ∧ (∀ k, place = .station k → ∀ i, ((plan.write place entry).stations.get k).points.get i = { level := 0, storage := 0 })
    ∧ (∀ f, place = .surface f → ∀ j i, (((plan.write place entry).surfaces.get f).nodes.get j).get i = 0)

/-- PLAN_CONTROL: ABANDON closes the run, COPY copies ACTIVE into PENDING unless a run is open, CHECK validates PENDING, and
a COMMIT is refused by the first condition that fails, changing nothing. (That the set {ABANDON, COPY} is taken by the row
ABANDON and by the row COPY alike is the model's reading, log 7.) (The issuer's byte may be one above 63: log 32.) -/
def Obligations.PlanControlActsOnPending : Prop :=
  ∀ (s : State) (p : List Byte), s.ready →
    (s.asks p .abandon →
      exec .abandon s = .next ((s.setStore { s.store with run := none }).answered p .done
        (beBytes 2 (s.store.run.getD 0))))
    ∧ (s.asks p .copy →
      (s.store.run = none →
        exec .copy s = .next ((s.setStore { s.store with planPending := s.store.active }).answered p .done [0#8, 0#8]))
      ∧ (s.store.run ≠ none → exec .copy s = .next (s.answered p .refusedState [])))
    ∧ (s.asks p .abandonCopy → ∀ c : Instr, c = .abandon ∨ c = .copy →
      exec c s = .next ((s.setStore { s.store with run := none, planPending := s.store.active }).answered p .done
        (beBytes 2 (s.store.run.getD 0))))
    ∧ (s.asks p .check →
      (s.store.run ≠ none → exec .check s = .next (s.answered p .refusedState []))
      ∧ (s.store.run = none → s.store.planPending.fault = none →
        exec .check s = .next (s.answered p .done (beBytes 2 s.store.planPending.number)))
      ∧ ∀ table index number, s.store.run = none → s.store.planPending.fault = some (table, index, number) →
        exec .check s = .next (s.answered p .invalidPlan [byteOf table, byteOf index, byteOf number]))
    ∧ (s.asks p .commit →
      (s.store.run ≠ none → exec .commit s = .next (s.answered p .refusedState [1#8, 255#8]))
      ∧ (s.store.run = none → s.store.writing = true →
        exec .commit s = .next (s.answered p .refusedState [2#8, 255#8]))
      ∧ (∀ table index number, s.store.run = none → s.store.writing = false →
        s.store.planPending.fault = some (table, index, number) →
        exec .commit s = .next (s.answered p .invalidPlan [byteOf table, byteOf index, byteOf number]))
      ∧ ∀ g, s.store.run = none → s.store.writing = false → s.store.planPending.fault = none →
        s.commitBlocker = some g → exec .commit s = .next (s.answered p .refusedState [3#8, byteOf g.1]))

/-- A COMMIT that passes every condition makes PENDING the ACTIVE plan, starts the retained write, arms every present
schedule entry, and brings each channel to its new binding, each reach to its new travel time, each silence record to its
new entry and each gang to its new members; PLAN_COMMITTED is sent before the reply unless UP_OWN is full; the stage and
storage of a station that stays, the reject and port counts and the snapshot are kept. (The clear armed mark of an absent
schedule entry and the record of an absent gang are the model's choice of log 16, PLAN_COMMITTED without subject that of log
20.) (The issuer's byte may be one above 63: log 32.) -/
def Obligations.CommitSwapsThePlanIn : Prop :=
  ∀ (s : State) (p : List Byte), s.ready → s.asks p .commit → s.store.run = none → s.store.writing = false →
    s.store.planPending.fault = none → s.commitBlocker = none →
    ∃ t, exec .commit s = .next t ∧ Replied s t p .done (beBytes 2 s.store.planPending.number)
      ∧ t.store = { active := s.store.planPending, planPending := s.store.planPending, run := none,
                    retained := { plan := s.store.planPending, agrees := false }, writing := true }
      ∧ (∀ n, t.armed.get n = (s.store.planPending.sched.get n).isPresent)
      ∧ (∀ g,
        (s.active.bound g = false → s.store.planPending.bound g = true →
          t.chan g = { Channel.resetAs .wait with tag := (s.chan g).tag })
        ∧ (s.active.bound g = true → s.store.planPending.bound g = false →
          t.chan g = { Channel.resetAs .unbound with tag := (s.chan g).tag })
        ∧ (s.active.bound g = true → s.store.planPending.bound g = true →
          s.active.binding g ≠ s.store.planPending.binding g →
          (t.chan g).state = .wait ∧ (t.chan g).measured = (s.chan g).measured ∧ (t.chan g).stale = (s.chan g).stale
          ∧ (t.chan g).age = (s.chan g).age ∧ (t.chan g).governed = none ∧ (t.chan g).source = .none
          ∧ (t.chan g).clamp = .none ∧ (t.chan g).silencePending = false ∧ (t.chan g).tag = (s.chan g).tag)
        ∧ (s.active.binding g = s.store.planPending.binding g →
          (t.chan g).measured = (s.chan g).measured ∧ (t.chan g).governed = (s.chan g).governed
          ∧ (t.chan g).clamp = (s.chan g).clamp ∧ (t.chan g).age = (s.chan g).age))
      ∧ (∀ k,
        (s.active.hasStation k = true → s.store.planPending.hasStation k = true →
          (t.station k).stage = (s.station k).stage ∧ (t.station k).storage = (s.station k).storage
          ∧ ((t.station k).qmin, (t.station k).qmax)
              = windowFor (s.store.planPending.stations.get k) (s.station k).stage (s.station k).arrival
                  (s.station k).qLocal)
        ∧ (s.active.hasStation k = false → s.store.planPending.hasStation k = true →
          t.station k = Station.resetWith (s.store.planPending.stations.get k).qminEnv
            (s.store.planPending.stations.get k).qmaxChan))
      ∧ (∀ k,
        (s.active.hasReach k = true → s.store.planPending.hasReach k = true →
          ((s.active.reaches.get k).tau = (s.store.planPending.reaches.get k).tau → t.reach k = s.reach k)
          ∧ ((s.active.reaches.get k).tau ≠ (s.store.planPending.reaches.get k).tau →
            (t.reach k).unseeded = (s.reach k).unseeded ∧ (t.reach k).coarse = (s.reach k).coarse
            ∧ (t.reach k).line = [{ flow := if (s.reach k).unseeded then 0 else (t.station (upperOf k)).qOut,
                                    minutes := (s.store.planPending.reaches.get k).tau }]))
        ∧ (s.active.hasReach k = false → s.store.planPending.hasReach k = true →
          t.reach k = { line := [{ flow := 0, minutes := (s.store.planPending.reaches.get k).tau }], unseeded := true,
                        coarse := 0 })
        ∧ (s.active.hasReach k = true → s.store.planPending.hasReach k = false →
          (t.reach k).line = [] ∧ (t.reach k).coarse = 0))
      ∧ (∀ k, t.silenceOf k =
          (let e := s.store.planPending.stations.get k
           let period := if 0 < e.silenceCount then some e.silencePeriod else none
           if e.isPresent = true then
             if s.active.hasStation k = true ∧ 0 < e.silenceCount then
               { level := (s.silenceOf k).level, timer := if (s.silenceOf k).level = .l2 then none else period }
             else { level := .l0, timer := period }
           else if s.active.hasStation k = true then { level := .l0, timer := none } else s.silenceOf k))
      ∧ (∀ c,
        ((s.store.planPending.gangs.get c).isPresent = true →
          (s.active.gangs.get c).isPresent = true → s.active.membersOf c = s.store.planPending.membersOf c →
          (t.gang c).lastMover = (s.gang c).lastMover ∧ (t.gang c).out = (s.gang c).out)
        ∧ ((s.store.planPending.gangs.get c).isPresent = true →
          (s.active.gangs.get c).isPresent = false ∨ s.active.membersOf c ≠ s.store.planPending.membersOf c →
          (t.gang c).lastMover = (s.store.planPending.membersOf c).getLast? ∧ (t.gang c).dwell = none
          ∧ (t.gang c).out = [] ∧ ((t.gang c).hold = true ↔ t.blockers c ≠ []))
        ∧ ((s.active.gangs.get c).isPresent = true → (s.store.planPending.gangs.get c).isPresent = false →
          (t.gang c).holder = none ∧ (t.gang c).dwell = none ∧ (t.gang c).out = [] ∧ (t.gang c).hold = false
          ∧ ∀ g ∈ s.active.membersOf c, s.store.planPending.gangOf g = none → (t.chan g).state ≠ .hold .gang))
      ∧ (t.report.gapMark = true
          ∨ ∃ earlier gap, t.portD.own = earlier
            ++ [.notice { kind := .planCommitted, subject := .none, time := s.now, detail := s.active.number
                          value := s.store.planPending.number, gap := gap },
                replyTo p .done (beBytes 2 s.store.planPending.number)])
      ∧ t.report.snapshot = s.report.snapshot ∧ t.report.sampler.interval = s.report.sampler.interval
      ∧ t.portD.counts = s.portD.counts ∧ t.portF.counts = s.portF.counts
      ∧ SameBut [.store, .armed, .chans, .stations, .reaches, .gangs, .silence, .portF, .portD, .inbox, .told, .report] s t

/-- A valid SET_CLOCK writes the counters and clears the prescaler, leaving every timer, sends CLOCK_SET and replies with
the clock before and after. Minute's work still owed is taken first, with its notices, and when these leave UP_OWN no room
the request waits (the model's choice of log 4). An invalid one changes nothing. (The issuer's byte may be one above 63: log
32.) -/
def Obligations.SetClockWritesTheCounters : Prop :=
  ∀ (s : State) (p : List Byte), s.ready → s.asks p .setClock → (reqArgs p).length = 6 →
    ((readClock (reqArgs p)).valid = false → exec .setClock s = .next (s.answered p .badArgument []))
    ∧ ((readClock (reqArgs p)).valid = true →
      ((s.beforeTaking p).ownRoom = true →
        ∃ t, exec .setClock s = .next t ∧ t.clock = readClock (reqArgs p) ∧ t.prescaler = 0
          ∧ Replied s t p .done (s.clock.bytes ++ (readClock (reqArgs p)).bytes)
          ∧ SameBut [.clock, .portD, .inbox, .told, .report, .portF, .chans, .stations, .reaches, .gangs, .armed, .minuteDue,
              .freeCount] s t)
      ∧ ((s.beforeTaking p).ownRoom = false → exec .setClock s = .next (s.beforeTaking p))
      ∧ (s.minuteOwed = true → s.minuteDue.balance.length ≤ 6 →
        (s.beforeTaking p).minuteDue = MinuteDue.none
          ∧ SameBut [.portD, .report, .portF, .chans, .stations, .reaches, .gangs, .armed, .minuteDue, .freeCount] s
              (s.beforeTaking p))
      ∧ (s.minuteOwed = false →
        ∃ t, exec .setClock s = .next t ∧ SameBut [.clock, .portD, .inbox, .told, .report] s t
          ∧ t.portF = s.portF ∧ t.portD = { s.portD with own := t.portD.own }
          ∧ (s.portD.own.length + s.portD.reserved + 2 ≤ 32 →
              t.portD.own = s.portD.own
                ++ [.notice { kind := .clockSet, subject := .none, time := (readClock (reqArgs p)).plantTime,
                              detail := s.clock.day, value := s.clock.plantTime.second, gap := s.report.gapMark },
                    replyTo p .done (s.clock.bytes ++ (readClock (reqArgs p)).bytes)])))

/-- RESUME_GATE ends a stall, and FORCE_GATE ends a stall or a silence hold with a new target; both are refused in any other
state and for a gate above 47. (The issuer's byte may be one above 63: log 32.) -/
def Obligations.GateRequestsEndHolds : Prop :=
  (∀ (s : State) (p : List Byte) (b : Byte), s.ready → s.asks p .resumeGate → reqArgs p = [b] →
    (47 < b.toNat → exec .resumeGate s = .next (s.answered p .badArgument []))
    ∧ ∀ g : Gate, b.toNat = g.1 →
      ((s.chan g).state ≠ .hold .stall → exec .resumeGate s = .next (s.answered p .refusedState []))
      ∧ ((s.chan g).state = .hold .stall →
        ∃ t, exec .resumeGate s = .next t ∧ Replied s t p .done []
          ∧ ((t.chan g).state = .idle ∨ (t.chan g).state.isStep = true
              ∨ (s.active.gangOf g ≠ none ∧ (t.chan g).state = .hold .gang))
          ∧ (s.active.gangOf g = none → s.hasWork g = false → (t.chan g).state = .idle)
          ∧ (t.chan g).governed = (s.chan g).governed ∧ (t.chan g).source = (s.chan g).source
          ∧ (t.chan g).clamp = (s.chan g).clamp
          ∧ SameBut [.chans, .gangs, .portF, .portD, .report, .inbox, .told] s t))
  ∧ (∀ (s : State) (p : List Byte), s.ready → s.asks p .forceGate → (reqArgs p).length = 3 →
    (47 < byteAt (reqArgs p) 0 → exec .forceGate s = .next (s.answered p .badArgument []))
    ∧ ∀ g : Gate, byteAt (reqArgs p) 0 = g.1 →
      ((s.chan g).state ≠ .hold .stall → (s.chan g).state ≠ .hold .silence →
        exec .forceGate s = .next (s.answered p .refusedState []))
      ∧ ((s.chan g).state = .hold .stall ∨ (s.chan g).state = .hold .silence →
        ∃ t, exec .forceGate s = .next t ∧ Replied s t p .done []
          ∧ ((t.chan g).state = .idle ∨ (t.chan g).state.isStep = true
              ∨ (s.active.gangOf g ≠ none ∧ (t.chan g).state = .hold .gang))
          ∧ (t.chan g).governed = some (min (fieldAt (reqArgs p) 1 2) 1000) ∧ (t.chan g).source = .force
          ∧ (t.chan g).clamp = (if 1000 < fieldAt (reqArgs p) 1 2 then .range else .none)
          ∧ SameBut [.chans, .gangs, .portF, .portD, .report, .inbox, .told] s t))

/-- SET_MEMBER_OUT sets or clears the out mark of a gang member; it is refused for a gate of no gang and for setting the
turn holder's mark while it is in STEP, and changes nothing when the mark already has the value. (The issuer's byte may be
one above 63: log 32.) -/
def Obligations.SetMemberOutChangesTheMark : Prop :=
  ∀ (s : State) (p : List Byte) (gate out : Byte), s.ready → s.asks p .setMemberOut → reqArgs p = [gate, out] →
    (47 < gate.toNat ∨ 1 < out.toNat → exec .setMemberOut s = .next (s.answered p .badArgument []))
    ∧ ∀ (g : Gate) (value : Bool), gate.toNat = g.1 → out.toNat = value.toNat →
      (s.active.gangOf g = none → exec .setMemberOut s = .next (s.answered p .refusedState []))
      ∧ ∀ c, s.active.gangOf g = some c →
        (value = true → (s.gang c).holder = some g → (s.chan g).state.isStep = true →
          exec .setMemberOut s = .next (s.answered p .refusedState []))
        ∧ ((value = false ∨ (s.gang c).holder ≠ some g ∨ (s.chan g).state.isStep = false) →
          ((s.gang c).isOut g = value → exec .setMemberOut s = .next (s.answered p .done []))
          ∧ ((s.gang c).isOut g ≠ value →
            ∃ t, exec .setMemberOut s = .next t ∧ Replied s t p .done [] ∧ (t.gang c).isOut g = value
              ∧ (∀ h ∈ s.members c, h ≠ g → (t.gang c).isOut h = (s.gang c).isOut h)
              ∧ (value = true → (s.chan g).state = .hold .gang →
                  (t.chan g).state = if s.silenceLevelOf g = .l0 then .idle else .hold .silence)
              ∧ (value = true → (s.gang c).holder = some g → (t.gang c).holder ≠ some g)
              ∧ (∀ h, (t.chan h).governed = (s.chan h).governed ∧ (t.chan h).measured = (s.chan h).measured)
              ∧ SameBut [.chans, .gangs, .portF, .portD, .report, .inbox, .told] s t))

/-- RESEED_REACH replaces a present reach's line, READ_MARKS returns a station's captures and clears their marks,
READ_COUNTS returns the counts and keeps them; absent ones are refused, numbers out of range are bad arguments (the bytes of
a mark without capture are free: log 14). (The issuer's byte may be one above 63: log 32.) -/
def Obligations.ReachMarksAndCountsRequests : Prop :=
  ∀ (s : State) (p : List Byte) (b : Byte), s.ready → reqArgs p = [b] →
    (s.asks p .reseedReach →
      (4 < b.toNat → exec .reseedReach s = .next (s.answered p .badArgument []))
      ∧ ∀ k : ReachId, b.toNat = k.1 →
        ((s.reachEntry k).isPresent = false → exec .reseedReach s = .next (s.answered p .refusedState []))
        ∧ ((s.reachEntry k).isPresent = true →
          ∃ t, exec .reseedReach s = .next t ∧ Replied s t p .done []
            ∧ t.reach k = { line := [{ flow := (s.station (upperOf k)).qOut, minutes := (s.reachEntry k).tau }],
                            unseeded := false, coarse := (s.reach k).coarse }
            ∧ (∀ j, j ≠ k → t.reach j = s.reach j)
            ∧ SameBut [.reaches, .portD, .report, .inbox, .told] s t))
    ∧ (s.asks p .readMarks →
      (5 < b.toNat → exec .readMarks s = .next (s.answered p .badArgument []))
      ∧ ∀ k : StationId, b.toNat = k.1 →
        ((s.stationEntry k).isPresent = false → exec .readMarks s = .next (s.answered p .refusedState []))
        ∧ ((s.stationEntry k).isPresent = true →
          exec .readMarks s = .next (((s.setStation k { s.station k with
              mark0 := { (s.station k).mark0 with unread := false, overwrite := false }
              mark1 := { (s.station k).mark1 with unread := false, overwrite := false } }).useFree).answered p .done
            (markBytes (s.stationEntry k).mark0 (s.station k).mark0 (s.freeBytes 0 7)
              ++ markBytes (s.stationEntry k).mark1 (s.station k).mark1 (s.freeBytes 7 7)))))
    ∧ (s.asks p .readCounts →
      (b.toNat = 0 → exec .readCounts s
        = .next (s.answered p .done (s.portD.counts.bytes ++ s.portF.counts.bytes ++ s.rejects.bytes)))
      ∧ (b.toNat = 1 → exec .readCounts s = .next (s.answered p .done
          ((allFin 5).map fun k => beBytes 4 (if (s.reachEntry k).isPresent then (s.reach k).coarse else 0)).flatten))
      ∧ (1 < b.toNat → exec .readCounts s = .next (s.answered p .badArgument [])))

/-- SNAPSHOT captures the part at one instant: the present stations and reaches, every channel, the clock; READ_SNAPSHOT
returns a page and part of the capture and keeps it (the bytes of absent values are free: log 14); SET_SAMPLER loads the
interval and the countdown and removes the tag. (The issuer's byte may be one above 63: log 32.) -/
def Obligations.SnapshotAndSamplerRequests : Prop :=
  ∀ (s : State) (p : List Byte), s.ready →
    (s.asks p .snapshot → reqArgs p = [] →
      exec .snapshot s = .next ((s.setReport { s.report with snapshot := some s.capture }).answered p .done
        (byteOf s.clock.year :: s.now.bytes)))
    ∧ (∀ g, s.capture.channels.get g =
        { state := (s.chan g).state, source := (s.chan g).source, measured := (s.chan g).measured
          stale := (s.chan g).stale, governed := (s.chan g).governed, start := (s.chan g).start
          clamp := (s.chan g).clamp })
    ∧ s.capture.year = s.clock.year ∧ s.capture.time = s.now
    ∧ (∀ k, s.capture.stations.get k = if (s.stationEntry k).isPresent then
          some { stage := (s.station k).stage, storage := (s.station k).storage
                 storageValid := (s.station k).storageValid, sPred := (s.station k).sPred
                 hwLevel := (s.station k).hw.level, hwQuality := (s.station k).hwQuality
                 hwStale := (s.station k).hw.stale, twLevel := (s.station k).tw.level
                 twStale := (s.station k).tw.stale, qOut := (s.station k).qOut, arrival := (s.station k).arrival
                 planned := ((s.active.gatesOf k).map fun g => s.rate g (s.headOf k) (s.chan g).plannedOpening).sum
                 qmin := (s.station k).qmin, qmax := (s.station k).qmax, level := (s.silenceOf k).level }
        else none)
    ∧ (∀ k, s.capture.reaches.get k = if (s.reachEntry k).isPresent then
          some { parcels := (s.reach k).line.length
                 volume := ((s.reach k).line.map fun p => p.flow * p.minutes).sum
                 nextArrival := ((s.reach k).line.map Parcel.flow).headD 0, unseeded := (s.reach k).unseeded }
        else none)
    ∧ (∀ sel : Byte, s.asks p .readSnapshot → reqArgs p = [sel] →
      (pageExists (sel.toNat / 16) (sel.toNat % 16) = false →
        exec .readSnapshot s = .next (s.answered p .badArgument []))
      ∧ (pageExists (sel.toNat / 16) (sel.toNat % 16) = true →
        (s.report.snapshot = none → exec .readSnapshot s = .next (s.answered p .refusedState []))
        ∧ ∀ m, s.report.snapshot = some m →
          ∃ records, m.records (sel.toNat / 16) (sel.toNat % 16) s.freeBytes = some records
            ∧ exec .readSnapshot s = .next (s.useFree.answered p .done (sel :: m.timeBytes ++ records))))
    ∧ (s.asks p .setSampler → (reqArgs p).length = 2 →
      exec .setSampler s = .next ((s.setReport { s.report with sampler :=
        { interval := fieldAt (reqArgs p) 0 2, countdown := fieldAt (reqArgs p) 0 2, tagged := none,
          record := s.report.sampler.record } }).answered p .done []))

/-- READ_TRACE returns the valid record, marks it invalid and reloads the countdown. (The issuer's byte may be one above 63:
log 32.) -/
def Obligations.ReadTraceReturnsTheRecord : Prop :=
  ∀ (s : State) (p : List Byte), s.ready → s.asks p .readTrace → reqArgs p = [] →
    (s.report.sampler.record = none → exec .readTrace s = .next (s.answered p .refusedState []))
    ∧ ∀ r, s.report.sampler.record = some r →
      exec .readTrace s = .next ((s.setReport { s.report with sampler := { s.report.sampler with
        record := none
        countdown := if 0 < s.report.sampler.interval
          then max 1 (s.report.sampler.interval - s.clock.second % 8)
          else s.report.sampler.countdown } }).answered p .done r.bytes)

/-! ### Invariants every step keeps -/

/-- Every step keeps the Plan Store sound. -/
def Obligations.StepsKeepTheStoreSound : Prop :=
  ∀ s t : State, StoreSound s → step s = .next t → StoreSound t

/-- Every step keeps the queues within their places, no request waiting while UP_OWN has room but for a Responder that is
told of it (log 6), and the clock at a valid time. -/
def Obligations.StepsKeepQueuesAndClock : Prop :=
  ∀ s t : State, QueuesFit s ∧ ClockSound s → step s = .next t → QueuesFit t ∧ ClockSound t

/-- Every step keeps each reach line at its travel time. -/
def Obligations.StepsKeepTheReachLines : Prop :=
  ∀ s t : State, LinesSound s → step s = .next t → LinesSound t

/-- Every step keeps each silence record fitting its entry. -/
def Obligations.StepsKeepTheSilenceRecords : Prop :=
  ∀ s t : State, SilenceSound s → step s = .next t → SilenceSound t

/-- Every step keeps exactly the unbound channels in UNBOUND. -/
def Obligations.StepsKeepTheBindings : Prop :=
  ∀ s t : State, BindingSound s → step s = .next t → BindingSound t

/-- Every step keeps every opening a channel holds within 0..1000. -/
def Obligations.StepsKeepTheOpenings : Prop :=
  ∀ s t : State, OpeningsSound s → step s = .next t → OpeningsSound t

end
end

