-- ==== Sys2Proof/Laws/State.lean ====
section
/-! SUPPORT. Beside State: what each update leaves in each field, by rfl, and what reading a record gives after replacing
one. -/

namespace Sys2Proof.Machine

variable (s : State)

@[simp] theorem setChan_pending (g : Gate) (c : Channel) : (s.setChan g c).pending = s.pending := rfl
@[simp] theorem setChan_straps (g : Gate) (c : Channel) : (s.setChan g c).straps = s.straps := rfl
@[simp] theorem setChan_fieldReady (g : Gate) (c : Channel) : (s.setChan g c).fieldReady = s.fieldReady := rfl
@[simp] theorem setChan_node (g : Gate) (c : Channel) : (s.setChan g c).node = s.node := rfl
@[simp] theorem setChan_portF (g : Gate) (c : Channel) : (s.setChan g c).portF = s.portF := rfl
@[simp] theorem setChan_portD (g : Gate) (c : Channel) : (s.setChan g c).portD = s.portD := rfl
@[simp] theorem setChan_inbox (g : Gate) (c : Channel) : (s.setChan g c).inbox = s.inbox := rfl
@[simp] theorem setChan_chans (g : Gate) (c : Channel) : (s.setChan g c).chans = s.chans.set g c := rfl
@[simp] theorem setChan_stations (g : Gate) (c : Channel) : (s.setChan g c).stations = s.stations := rfl
@[simp] theorem setChan_silence (g : Gate) (c : Channel) : (s.setChan g c).silence = s.silence := rfl
@[simp] theorem setChan_reaches (g : Gate) (c : Channel) : (s.setChan g c).reaches = s.reaches := rfl
@[simp] theorem setChan_gangs (g : Gate) (c : Channel) : (s.setChan g c).gangs = s.gangs := rfl
@[simp] theorem setChan_rejects (g : Gate) (c : Channel) : (s.setChan g c).rejects = s.rejects := rfl
@[simp] theorem setChan_clock (g : Gate) (c : Channel) : (s.setChan g c).clock = s.clock := rfl
@[simp] theorem setChan_prescaler (g : Gate) (c : Channel) : (s.setChan g c).prescaler = s.prescaler := rfl
@[simp] theorem setChan_minuteDue (g : Gate) (c : Channel) : (s.setChan g c).minuteDue = s.minuteDue := rfl
@[simp] theorem setChan_armed (g : Gate) (c : Channel) : (s.setChan g c).armed = s.armed := rfl
@[simp] theorem setChan_store (g : Gate) (c : Channel) : (s.setChan g c).store = s.store := rfl
@[simp] theorem setChan_report (g : Gate) (c : Channel) : (s.setChan g c).report = s.report := rfl
@[simp] theorem setChan_freeCount (g : Gate) (c : Channel) : (s.setChan g c).freeCount = s.freeCount := rfl
@[simp] theorem setChan_told (g : Gate) (c : Channel) : (s.setChan g c).told = s.told := rfl

@[simp] theorem setStation_pending (k : StationId) (r : Station) : (s.setStation k r).pending = s.pending := rfl
@[simp] theorem setStation_straps (k : StationId) (r : Station) : (s.setStation k r).straps = s.straps := rfl
@[simp] theorem setStation_fieldReady (k : StationId) (r : Station) : (s.setStation k r).fieldReady = s.fieldReady := rfl
@[simp] theorem setStation_node (k : StationId) (r : Station) : (s.setStation k r).node = s.node := rfl
@[simp] theorem setStation_portF (k : StationId) (r : Station) : (s.setStation k r).portF = s.portF := rfl
@[simp] theorem setStation_portD (k : StationId) (r : Station) : (s.setStation k r).portD = s.portD := rfl
@[simp] theorem setStation_inbox (k : StationId) (r : Station) : (s.setStation k r).inbox = s.inbox := rfl
@[simp] theorem setStation_chans (k : StationId) (r : Station) : (s.setStation k r).chans = s.chans := rfl
@[simp] theorem setStation_stations (k : StationId) (r : Station) : (s.setStation k r).stations = s.stations.set k r := rfl
@[simp] theorem setStation_silence (k : StationId) (r : Station) : (s.setStation k r).silence = s.silence := rfl
@[simp] theorem setStation_reaches (k : StationId) (r : Station) : (s.setStation k r).reaches = s.reaches := rfl
@[simp] theorem setStation_gangs (k : StationId) (r : Station) : (s.setStation k r).gangs = s.gangs := rfl
@[simp] theorem setStation_rejects (k : StationId) (r : Station) : (s.setStation k r).rejects = s.rejects := rfl
@[simp] theorem setStation_clock (k : StationId) (r : Station) : (s.setStation k r).clock = s.clock := rfl
@[simp] theorem setStation_prescaler (k : StationId) (r : Station) : (s.setStation k r).prescaler = s.prescaler := rfl
@[simp] theorem setStation_minuteDue (k : StationId) (r : Station) : (s.setStation k r).minuteDue = s.minuteDue := rfl
@[simp] theorem setStation_armed (k : StationId) (r : Station) : (s.setStation k r).armed = s.armed := rfl
@[simp] theorem setStation_store (k : StationId) (r : Station) : (s.setStation k r).store = s.store := rfl
@[simp] theorem setStation_report (k : StationId) (r : Station) : (s.setStation k r).report = s.report := rfl
@[simp] theorem setStation_freeCount (k : StationId) (r : Station) : (s.setStation k r).freeCount = s.freeCount := rfl
@[simp] theorem setStation_told (k : StationId) (r : Station) : (s.setStation k r).told = s.told := rfl

@[simp] theorem setSilence_pending (k : StationId) (r : SilenceRec) : (s.setSilence k r).pending = s.pending := rfl
@[simp] theorem setSilence_straps (k : StationId) (r : SilenceRec) : (s.setSilence k r).straps = s.straps := rfl
@[simp] theorem setSilence_fieldReady (k : StationId) (r : SilenceRec) : (s.setSilence k r).fieldReady = s.fieldReady := rfl
@[simp] theorem setSilence_node (k : StationId) (r : SilenceRec) : (s.setSilence k r).node = s.node := rfl
@[simp] theorem setSilence_portF (k : StationId) (r : SilenceRec) : (s.setSilence k r).portF = s.portF := rfl
@[simp] theorem setSilence_portD (k : StationId) (r : SilenceRec) : (s.setSilence k r).portD = s.portD := rfl
@[simp] theorem setSilence_inbox (k : StationId) (r : SilenceRec) : (s.setSilence k r).inbox = s.inbox := rfl
@[simp] theorem setSilence_chans (k : StationId) (r : SilenceRec) : (s.setSilence k r).chans = s.chans := rfl
@[simp] theorem setSilence_stations (k : StationId) (r : SilenceRec) : (s.setSilence k r).stations = s.stations := rfl
@[simp] theorem setSilence_silence (k : StationId) (r : SilenceRec) : (s.setSilence k r).silence = s.silence.set k r := rfl
@[simp] theorem setSilence_reaches (k : StationId) (r : SilenceRec) : (s.setSilence k r).reaches = s.reaches := rfl
@[simp] theorem setSilence_gangs (k : StationId) (r : SilenceRec) : (s.setSilence k r).gangs = s.gangs := rfl
@[simp] theorem setSilence_rejects (k : StationId) (r : SilenceRec) : (s.setSilence k r).rejects = s.rejects := rfl
@[simp] theorem setSilence_clock (k : StationId) (r : SilenceRec) : (s.setSilence k r).clock = s.clock := rfl
@[simp] theorem setSilence_prescaler (k : StationId) (r : SilenceRec) : (s.setSilence k r).prescaler = s.prescaler := rfl
@[simp] theorem setSilence_minuteDue (k : StationId) (r : SilenceRec) : (s.setSilence k r).minuteDue = s.minuteDue := rfl
@[simp] theorem setSilence_armed (k : StationId) (r : SilenceRec) : (s.setSilence k r).armed = s.armed := rfl
@[simp] theorem setSilence_store (k : StationId) (r : SilenceRec) : (s.setSilence k r).store = s.store := rfl
@[simp] theorem setSilence_report (k : StationId) (r : SilenceRec) : (s.setSilence k r).report = s.report := rfl
@[simp] theorem setSilence_freeCount (k : StationId) (r : SilenceRec) : (s.setSilence k r).freeCount = s.freeCount := rfl
@[simp] theorem setSilence_told (k : StationId) (r : SilenceRec) : (s.setSilence k r).told = s.told := rfl

@[simp] theorem setReach_pending (k : ReachId) (r : Reach) : (s.setReach k r).pending = s.pending := rfl
@[simp] theorem setReach_straps (k : ReachId) (r : Reach) : (s.setReach k r).straps = s.straps := rfl
@[simp] theorem setReach_fieldReady (k : ReachId) (r : Reach) : (s.setReach k r).fieldReady = s.fieldReady := rfl
@[simp] theorem setReach_node (k : ReachId) (r : Reach) : (s.setReach k r).node = s.node := rfl
@[simp] theorem setReach_portF (k : ReachId) (r : Reach) : (s.setReach k r).portF = s.portF := rfl
@[simp] theorem setReach_portD (k : ReachId) (r : Reach) : (s.setReach k r).portD = s.portD := rfl
@[simp] theorem setReach_inbox (k : ReachId) (r : Reach) : (s.setReach k r).inbox = s.inbox := rfl
@[simp] theorem setReach_chans (k : ReachId) (r : Reach) : (s.setReach k r).chans = s.chans := rfl
@[simp] theorem setReach_stations (k : ReachId) (r : Reach) : (s.setReach k r).stations = s.stations := rfl
@[simp] theorem setReach_silence (k : ReachId) (r : Reach) : (s.setReach k r).silence = s.silence := rfl
@[simp] theorem setReach_reaches (k : ReachId) (r : Reach) : (s.setReach k r).reaches = s.reaches.set k r := rfl
@[simp] theorem setReach_gangs (k : ReachId) (r : Reach) : (s.setReach k r).gangs = s.gangs := rfl
@[simp] theorem setReach_rejects (k : ReachId) (r : Reach) : (s.setReach k r).rejects = s.rejects := rfl
@[simp] theorem setReach_clock (k : ReachId) (r : Reach) : (s.setReach k r).clock = s.clock := rfl
@[simp] theorem setReach_prescaler (k : ReachId) (r : Reach) : (s.setReach k r).prescaler = s.prescaler := rfl
@[simp] theorem setReach_minuteDue (k : ReachId) (r : Reach) : (s.setReach k r).minuteDue = s.minuteDue := rfl
@[simp] theorem setReach_armed (k : ReachId) (r : Reach) : (s.setReach k r).armed = s.armed := rfl
@[simp] theorem setReach_store (k : ReachId) (r : Reach) : (s.setReach k r).store = s.store := rfl
@[simp] theorem setReach_report (k : ReachId) (r : Reach) : (s.setReach k r).report = s.report := rfl
@[simp] theorem setReach_freeCount (k : ReachId) (r : Reach) : (s.setReach k r).freeCount = s.freeCount := rfl
@[simp] theorem setReach_told (k : ReachId) (r : Reach) : (s.setReach k r).told = s.told := rfl

@[simp] theorem setGang_pending (k : GangId) (r : Gang) : (s.setGang k r).pending = s.pending := rfl
@[simp] theorem setGang_straps (k : GangId) (r : Gang) : (s.setGang k r).straps = s.straps := rfl
@[simp] theorem setGang_fieldReady (k : GangId) (r : Gang) : (s.setGang k r).fieldReady = s.fieldReady := rfl
@[simp] theorem setGang_node (k : GangId) (r : Gang) : (s.setGang k r).node = s.node := rfl
@[simp] theorem setGang_portF (k : GangId) (r : Gang) : (s.setGang k r).portF = s.portF := rfl
@[simp] theorem setGang_portD (k : GangId) (r : Gang) : (s.setGang k r).portD = s.portD := rfl
@[simp] theorem setGang_inbox (k : GangId) (r : Gang) : (s.setGang k r).inbox = s.inbox := rfl
@[simp] theorem setGang_chans (k : GangId) (r : Gang) : (s.setGang k r).chans = s.chans := rfl
@[simp] theorem setGang_stations (k : GangId) (r : Gang) : (s.setGang k r).stations = s.stations := rfl
@[simp] theorem setGang_silence (k : GangId) (r : Gang) : (s.setGang k r).silence = s.silence := rfl
@[simp] theorem setGang_reaches (k : GangId) (r : Gang) : (s.setGang k r).reaches = s.reaches := rfl
@[simp] theorem setGang_gangs (k : GangId) (r : Gang) : (s.setGang k r).gangs = s.gangs.set k r := rfl
@[simp] theorem setGang_rejects (k : GangId) (r : Gang) : (s.setGang k r).rejects = s.rejects := rfl
@[simp] theorem setGang_clock (k : GangId) (r : Gang) : (s.setGang k r).clock = s.clock := rfl
@[simp] theorem setGang_prescaler (k : GangId) (r : Gang) : (s.setGang k r).prescaler = s.prescaler := rfl
@[simp] theorem setGang_minuteDue (k : GangId) (r : Gang) : (s.setGang k r).minuteDue = s.minuteDue := rfl
@[simp] theorem setGang_armed (k : GangId) (r : Gang) : (s.setGang k r).armed = s.armed := rfl
@[simp] theorem setGang_store (k : GangId) (r : Gang) : (s.setGang k r).store = s.store := rfl
@[simp] theorem setGang_report (k : GangId) (r : Gang) : (s.setGang k r).report = s.report := rfl
@[simp] theorem setGang_freeCount (k : GangId) (r : Gang) : (s.setGang k r).freeCount = s.freeCount := rfl
@[simp] theorem setGang_told (k : GangId) (r : Gang) : (s.setGang k r).told = s.told := rfl

@[simp] theorem setPortF_pending (p : PortF) : (s.setPortF p).pending = s.pending := rfl
@[simp] theorem setPortF_straps (p : PortF) : (s.setPortF p).straps = s.straps := rfl
@[simp] theorem setPortF_fieldReady (p : PortF) : (s.setPortF p).fieldReady = s.fieldReady := rfl
@[simp] theorem setPortF_node (p : PortF) : (s.setPortF p).node = s.node := rfl
@[simp] theorem setPortF_portF (p : PortF) : (s.setPortF p).portF = p := rfl
@[simp] theorem setPortF_portD (p : PortF) : (s.setPortF p).portD = s.portD := rfl
@[simp] theorem setPortF_inbox (p : PortF) : (s.setPortF p).inbox = s.inbox := rfl
@[simp] theorem setPortF_chans (p : PortF) : (s.setPortF p).chans = s.chans := rfl
@[simp] theorem setPortF_stations (p : PortF) : (s.setPortF p).stations = s.stations := rfl
@[simp] theorem setPortF_silence (p : PortF) : (s.setPortF p).silence = s.silence := rfl
@[simp] theorem setPortF_reaches (p : PortF) : (s.setPortF p).reaches = s.reaches := rfl
@[simp] theorem setPortF_gangs (p : PortF) : (s.setPortF p).gangs = s.gangs := rfl
@[simp] theorem setPortF_rejects (p : PortF) : (s.setPortF p).rejects = s.rejects := rfl
@[simp] theorem setPortF_clock (p : PortF) : (s.setPortF p).clock = s.clock := rfl
@[simp] theorem setPortF_prescaler (p : PortF) : (s.setPortF p).prescaler = s.prescaler := rfl
@[simp] theorem setPortF_minuteDue (p : PortF) : (s.setPortF p).minuteDue = s.minuteDue := rfl
@[simp] theorem setPortF_armed (p : PortF) : (s.setPortF p).armed = s.armed := rfl
@[simp] theorem setPortF_store (p : PortF) : (s.setPortF p).store = s.store := rfl
@[simp] theorem setPortF_report (p : PortF) : (s.setPortF p).report = s.report := rfl
@[simp] theorem setPortF_freeCount (p : PortF) : (s.setPortF p).freeCount = s.freeCount := rfl
@[simp] theorem setPortF_told (p : PortF) : (s.setPortF p).told = s.told := rfl

@[simp] theorem setPortD_pending (p : PortD) : (s.setPortD p).pending = s.pending := rfl
@[simp] theorem setPortD_straps (p : PortD) : (s.setPortD p).straps = s.straps := rfl
@[simp] theorem setPortD_fieldReady (p : PortD) : (s.setPortD p).fieldReady = s.fieldReady := rfl
@[simp] theorem setPortD_node (p : PortD) : (s.setPortD p).node = s.node := rfl
@[simp] theorem setPortD_portF (p : PortD) : (s.setPortD p).portF = s.portF := rfl
@[simp] theorem setPortD_portD (p : PortD) : (s.setPortD p).portD = p := rfl
@[simp] theorem setPortD_inbox (p : PortD) : (s.setPortD p).inbox = s.inbox := rfl
@[simp] theorem setPortD_chans (p : PortD) : (s.setPortD p).chans = s.chans := rfl
@[simp] theorem setPortD_stations (p : PortD) : (s.setPortD p).stations = s.stations := rfl
@[simp] theorem setPortD_silence (p : PortD) : (s.setPortD p).silence = s.silence := rfl
@[simp] theorem setPortD_reaches (p : PortD) : (s.setPortD p).reaches = s.reaches := rfl
@[simp] theorem setPortD_gangs (p : PortD) : (s.setPortD p).gangs = s.gangs := rfl
@[simp] theorem setPortD_rejects (p : PortD) : (s.setPortD p).rejects = s.rejects := rfl
@[simp] theorem setPortD_clock (p : PortD) : (s.setPortD p).clock = s.clock := rfl
@[simp] theorem setPortD_prescaler (p : PortD) : (s.setPortD p).prescaler = s.prescaler := rfl
@[simp] theorem setPortD_minuteDue (p : PortD) : (s.setPortD p).minuteDue = s.minuteDue := rfl
@[simp] theorem setPortD_armed (p : PortD) : (s.setPortD p).armed = s.armed := rfl
@[simp] theorem setPortD_store (p : PortD) : (s.setPortD p).store = s.store := rfl
@[simp] theorem setPortD_report (p : PortD) : (s.setPortD p).report = s.report := rfl
@[simp] theorem setPortD_freeCount (p : PortD) : (s.setPortD p).freeCount = s.freeCount := rfl
@[simp] theorem setPortD_told (p : PortD) : (s.setPortD p).told = s.told := rfl

@[simp] theorem setReport_pending (r : Report) : (s.setReport r).pending = s.pending := rfl
@[simp] theorem setReport_straps (r : Report) : (s.setReport r).straps = s.straps := rfl
@[simp] theorem setReport_fieldReady (r : Report) : (s.setReport r).fieldReady = s.fieldReady := rfl
@[simp] theorem setReport_node (r : Report) : (s.setReport r).node = s.node := rfl
@[simp] theorem setReport_portF (r : Report) : (s.setReport r).portF = s.portF := rfl
@[simp] theorem setReport_portD (r : Report) : (s.setReport r).portD = s.portD := rfl
@[simp] theorem setReport_inbox (r : Report) : (s.setReport r).inbox = s.inbox := rfl
@[simp] theorem setReport_chans (r : Report) : (s.setReport r).chans = s.chans := rfl
@[simp] theorem setReport_stations (r : Report) : (s.setReport r).stations = s.stations := rfl
@[simp] theorem setReport_silence (r : Report) : (s.setReport r).silence = s.silence := rfl
@[simp] theorem setReport_reaches (r : Report) : (s.setReport r).reaches = s.reaches := rfl
@[simp] theorem setReport_gangs (r : Report) : (s.setReport r).gangs = s.gangs := rfl
@[simp] theorem setReport_rejects (r : Report) : (s.setReport r).rejects = s.rejects := rfl
@[simp] theorem setReport_clock (r : Report) : (s.setReport r).clock = s.clock := rfl
@[simp] theorem setReport_prescaler (r : Report) : (s.setReport r).prescaler = s.prescaler := rfl
@[simp] theorem setReport_minuteDue (r : Report) : (s.setReport r).minuteDue = s.minuteDue := rfl
@[simp] theorem setReport_armed (r : Report) : (s.setReport r).armed = s.armed := rfl
@[simp] theorem setReport_store (r : Report) : (s.setReport r).store = s.store := rfl
@[simp] theorem setReport_report (r : Report) : (s.setReport r).report = r := rfl
@[simp] theorem setReport_freeCount (r : Report) : (s.setReport r).freeCount = s.freeCount := rfl
@[simp] theorem setReport_told (r : Report) : (s.setReport r).told = s.told := rfl

@[simp] theorem setStore_pending (r : PlanStore) : (s.setStore r).pending = s.pending := rfl
@[simp] theorem setStore_straps (r : PlanStore) : (s.setStore r).straps = s.straps := rfl
@[simp] theorem setStore_fieldReady (r : PlanStore) : (s.setStore r).fieldReady = s.fieldReady := rfl
@[simp] theorem setStore_node (r : PlanStore) : (s.setStore r).node = s.node := rfl
@[simp] theorem setStore_portF (r : PlanStore) : (s.setStore r).portF = s.portF := rfl
@[simp] theorem setStore_portD (r : PlanStore) : (s.setStore r).portD = s.portD := rfl
@[simp] theorem setStore_inbox (r : PlanStore) : (s.setStore r).inbox = s.inbox := rfl
@[simp] theorem setStore_chans (r : PlanStore) : (s.setStore r).chans = s.chans := rfl
@[simp] theorem setStore_stations (r : PlanStore) : (s.setStore r).stations = s.stations := rfl
@[simp] theorem setStore_silence (r : PlanStore) : (s.setStore r).silence = s.silence := rfl
@[simp] theorem setStore_reaches (r : PlanStore) : (s.setStore r).reaches = s.reaches := rfl
@[simp] theorem setStore_gangs (r : PlanStore) : (s.setStore r).gangs = s.gangs := rfl
@[simp] theorem setStore_rejects (r : PlanStore) : (s.setStore r).rejects = s.rejects := rfl
@[simp] theorem setStore_clock (r : PlanStore) : (s.setStore r).clock = s.clock := rfl
@[simp] theorem setStore_prescaler (r : PlanStore) : (s.setStore r).prescaler = s.prescaler := rfl
@[simp] theorem setStore_minuteDue (r : PlanStore) : (s.setStore r).minuteDue = s.minuteDue := rfl
@[simp] theorem setStore_armed (r : PlanStore) : (s.setStore r).armed = s.armed := rfl
@[simp] theorem setStore_store (r : PlanStore) : (s.setStore r).store = r := rfl
@[simp] theorem setStore_report (r : PlanStore) : (s.setStore r).report = s.report := rfl
@[simp] theorem setStore_freeCount (r : PlanStore) : (s.setStore r).freeCount = s.freeCount := rfl
@[simp] theorem setStore_told (r : PlanStore) : (s.setStore r).told = s.told := rfl

@[simp] theorem setSampler_pending (m : Sampler) : (s.setSampler m).pending = s.pending := rfl
@[simp] theorem setSampler_straps (m : Sampler) : (s.setSampler m).straps = s.straps := rfl
@[simp] theorem setSampler_fieldReady (m : Sampler) : (s.setSampler m).fieldReady = s.fieldReady := rfl
@[simp] theorem setSampler_node (m : Sampler) : (s.setSampler m).node = s.node := rfl
@[simp] theorem setSampler_portF (m : Sampler) : (s.setSampler m).portF = s.portF := rfl
@[simp] theorem setSampler_portD (m : Sampler) : (s.setSampler m).portD = s.portD := rfl
@[simp] theorem setSampler_inbox (m : Sampler) : (s.setSampler m).inbox = s.inbox := rfl
@[simp] theorem setSampler_chans (m : Sampler) : (s.setSampler m).chans = s.chans := rfl
@[simp] theorem setSampler_stations (m : Sampler) : (s.setSampler m).stations = s.stations := rfl
@[simp] theorem setSampler_silence (m : Sampler) : (s.setSampler m).silence = s.silence := rfl
@[simp] theorem setSampler_reaches (m : Sampler) : (s.setSampler m).reaches = s.reaches := rfl
@[simp] theorem setSampler_gangs (m : Sampler) : (s.setSampler m).gangs = s.gangs := rfl
@[simp] theorem setSampler_rejects (m : Sampler) : (s.setSampler m).rejects = s.rejects := rfl
@[simp] theorem setSampler_clock (m : Sampler) : (s.setSampler m).clock = s.clock := rfl
@[simp] theorem setSampler_prescaler (m : Sampler) : (s.setSampler m).prescaler = s.prescaler := rfl
@[simp] theorem setSampler_minuteDue (m : Sampler) : (s.setSampler m).minuteDue = s.minuteDue := rfl
@[simp] theorem setSampler_armed (m : Sampler) : (s.setSampler m).armed = s.armed := rfl
@[simp] theorem setSampler_store (m : Sampler) : (s.setSampler m).store = s.store := rfl
@[simp] theorem setSampler_report (m : Sampler) : (s.setSampler m).report = { s.report with sampler := m } := rfl
@[simp] theorem setSampler_freeCount (m : Sampler) : (s.setSampler m).freeCount = s.freeCount := rfl
@[simp] theorem setSampler_told (m : Sampler) : (s.setSampler m).told = s.told := rfl

@[simp] theorem useFree_pending : (s.useFree).pending = s.pending := rfl
@[simp] theorem useFree_straps : (s.useFree).straps = s.straps := rfl
@[simp] theorem useFree_fieldReady : (s.useFree).fieldReady = s.fieldReady := rfl
@[simp] theorem useFree_node : (s.useFree).node = s.node := rfl
@[simp] theorem useFree_portF : (s.useFree).portF = s.portF := rfl
@[simp] theorem useFree_portD : (s.useFree).portD = s.portD := rfl
@[simp] theorem useFree_inbox : (s.useFree).inbox = s.inbox := rfl
@[simp] theorem useFree_chans : (s.useFree).chans = s.chans := rfl
@[simp] theorem useFree_stations : (s.useFree).stations = s.stations := rfl
@[simp] theorem useFree_silence : (s.useFree).silence = s.silence := rfl
@[simp] theorem useFree_reaches : (s.useFree).reaches = s.reaches := rfl
@[simp] theorem useFree_gangs : (s.useFree).gangs = s.gangs := rfl
@[simp] theorem useFree_rejects : (s.useFree).rejects = s.rejects := rfl
@[simp] theorem useFree_clock : (s.useFree).clock = s.clock := rfl
@[simp] theorem useFree_prescaler : (s.useFree).prescaler = s.prescaler := rfl
@[simp] theorem useFree_minuteDue : (s.useFree).minuteDue = s.minuteDue := rfl
@[simp] theorem useFree_armed : (s.useFree).armed = s.armed := rfl
@[simp] theorem useFree_store : (s.useFree).store = s.store := rfl
@[simp] theorem useFree_report : (s.useFree).report = s.report := rfl
@[simp] theorem useFree_freeCount : (s.useFree).freeCount = s.freeCount + 1 := rfl
@[simp] theorem useFree_told : (s.useFree).told = s.told := rfl

@[simp] theorem withQueue_pending (q : List Instr) : (s.withQueue q).pending = q := rfl
@[simp] theorem withQueue_straps (q : List Instr) : (s.withQueue q).straps = s.straps := rfl
@[simp] theorem withQueue_fieldReady (q : List Instr) : (s.withQueue q).fieldReady = s.fieldReady := rfl
@[simp] theorem withQueue_node (q : List Instr) : (s.withQueue q).node = s.node := rfl
@[simp] theorem withQueue_portF (q : List Instr) : (s.withQueue q).portF = s.portF := rfl
@[simp] theorem withQueue_portD (q : List Instr) : (s.withQueue q).portD = s.portD := rfl
@[simp] theorem withQueue_inbox (q : List Instr) : (s.withQueue q).inbox = s.inbox := rfl
@[simp] theorem withQueue_chans (q : List Instr) : (s.withQueue q).chans = s.chans := rfl
@[simp] theorem withQueue_stations (q : List Instr) : (s.withQueue q).stations = s.stations := rfl
@[simp] theorem withQueue_silence (q : List Instr) : (s.withQueue q).silence = s.silence := rfl
@[simp] theorem withQueue_reaches (q : List Instr) : (s.withQueue q).reaches = s.reaches := rfl
@[simp] theorem withQueue_gangs (q : List Instr) : (s.withQueue q).gangs = s.gangs := rfl
@[simp] theorem withQueue_rejects (q : List Instr) : (s.withQueue q).rejects = s.rejects := rfl
@[simp] theorem withQueue_clock (q : List Instr) : (s.withQueue q).clock = s.clock := rfl
@[simp] theorem withQueue_prescaler (q : List Instr) : (s.withQueue q).prescaler = s.prescaler := rfl
@[simp] theorem withQueue_minuteDue (q : List Instr) : (s.withQueue q).minuteDue = s.minuteDue := rfl
@[simp] theorem withQueue_armed (q : List Instr) : (s.withQueue q).armed = s.armed := rfl
@[simp] theorem withQueue_store (q : List Instr) : (s.withQueue q).store = s.store := rfl
@[simp] theorem withQueue_report (q : List Instr) : (s.withQueue q).report = s.report := rfl
@[simp] theorem withQueue_freeCount (q : List Instr) : (s.withQueue q).freeCount = s.freeCount := rfl
@[simp] theorem withQueue_told (q : List Instr) : (s.withQueue q).told = s.told := rfl

@[simp] theorem chan_setChan_self (i : Gate) (v : Channel) : (s.setChan i v).chan i = v := Tab.get_set_self ..
theorem chan_setChan_ne {i j : Gate} (v : Channel) (h : j ≠ i) : (s.setChan i v).chan j = s.chan j :=
  Tab.get_set_ne _ v h
theorem chan_setChan (i j : Gate) (v : Channel) : (s.setChan i v).chan j = if j = i then v else s.chan j := Tab.get_set ..
@[simp] theorem chan_setStation (i : Gate) (k : StationId) (r : Station) : (s.setStation k r).chan i = s.chan i := rfl
@[simp] theorem chan_setSilence (i : Gate) (k : StationId) (r : SilenceRec) : (s.setSilence k r).chan i = s.chan i := rfl
@[simp] theorem chan_setReach (i : Gate) (k : ReachId) (r : Reach) : (s.setReach k r).chan i = s.chan i := rfl
@[simp] theorem chan_setGang (i : Gate) (k : GangId) (r : Gang) : (s.setGang k r).chan i = s.chan i := rfl
@[simp] theorem chan_setPortF (i : Gate) (p : PortF) : (s.setPortF p).chan i = s.chan i := rfl
@[simp] theorem chan_setPortD (i : Gate) (p : PortD) : (s.setPortD p).chan i = s.chan i := rfl
@[simp] theorem chan_setReport (i : Gate) (r : Report) : (s.setReport r).chan i = s.chan i := rfl
@[simp] theorem chan_setStore (i : Gate) (r : PlanStore) : (s.setStore r).chan i = s.chan i := rfl
@[simp] theorem chan_setSampler (i : Gate) (m : Sampler) : (s.setSampler m).chan i = s.chan i := rfl
@[simp] theorem chan_useFree (i : Gate) : (s.useFree).chan i = s.chan i := rfl
@[simp] theorem chan_withQueue (i : Gate) (q : List Instr) : (s.withQueue q).chan i = s.chan i := rfl

@[simp] theorem station_setStation_self (i : StationId) (v : Station) : (s.setStation i v).station i = v := Tab.get_set_self ..
theorem station_setStation_ne {i j : StationId} (v : Station) (h : j ≠ i) : (s.setStation i v).station j = s.station j :=
  Tab.get_set_ne _ v h
theorem station_setStation (i j : StationId) (v : Station) : (s.setStation i v).station j = if j = i then v else s.station j := Tab.get_set ..
@[simp] theorem station_setChan (i : StationId) (g : Gate) (c : Channel) : (s.setChan g c).station i = s.station i := rfl
@[simp] theorem station_setSilence (i : StationId) (k : StationId) (r : SilenceRec) : (s.setSilence k r).station i = s.station i := rfl
@[simp] theorem station_setReach (i : StationId) (k : ReachId) (r : Reach) : (s.setReach k r).station i = s.station i := rfl
@[simp] theorem station_setGang (i : StationId) (k : GangId) (r : Gang) : (s.setGang k r).station i = s.station i := rfl
@[simp] theorem station_setPortF (i : StationId) (p : PortF) : (s.setPortF p).station i = s.station i := rfl
@[simp] theorem station_setPortD (i : StationId) (p : PortD) : (s.setPortD p).station i = s.station i := rfl
@[simp] theorem station_setReport (i : StationId) (r : Report) : (s.setReport r).station i = s.station i := rfl
@[simp] theorem station_setStore (i : StationId) (r : PlanStore) : (s.setStore r).station i = s.station i := rfl
@[simp] theorem station_setSampler (i : StationId) (m : Sampler) : (s.setSampler m).station i = s.station i := rfl
@[simp] theorem station_useFree (i : StationId) : (s.useFree).station i = s.station i := rfl
@[simp] theorem station_withQueue (i : StationId) (q : List Instr) : (s.withQueue q).station i = s.station i := rfl

@[simp] theorem silenceOf_setSilence_self (i : StationId) (v : SilenceRec) : (s.setSilence i v).silenceOf i = v := Tab.get_set_self ..
theorem silenceOf_setSilence_ne {i j : StationId} (v : SilenceRec) (h : j ≠ i) : (s.setSilence i v).silenceOf j = s.silenceOf j :=
  Tab.get_set_ne _ v h
theorem silenceOf_setSilence (i j : StationId) (v : SilenceRec) : (s.setSilence i v).silenceOf j = if j = i then v else s.silenceOf j := Tab.get_set ..
@[simp] theorem silenceOf_setChan (i : StationId) (g : Gate) (c : Channel) : (s.setChan g c).silenceOf i = s.silenceOf i := rfl
@[simp] theorem silenceOf_setStation (i : StationId) (k : StationId) (r : Station) : (s.setStation k r).silenceOf i = s.silenceOf i := rfl
@[simp] theorem silenceOf_setReach (i : StationId) (k : ReachId) (r : Reach) : (s.setReach k r).silenceOf i = s.silenceOf i := rfl
@[simp] theorem silenceOf_setGang (i : StationId) (k : GangId) (r : Gang) : (s.setGang k r).silenceOf i = s.silenceOf i := rfl
@[simp] theorem silenceOf_setPortF (i : StationId) (p : PortF) : (s.setPortF p).silenceOf i = s.silenceOf i := rfl
@[simp] theorem silenceOf_setPortD (i : StationId) (p : PortD) : (s.setPortD p).silenceOf i = s.silenceOf i := rfl
@[simp] theorem silenceOf_setReport (i : StationId) (r : Report) : (s.setReport r).silenceOf i = s.silenceOf i := rfl
@[simp] theorem silenceOf_setStore (i : StationId) (r : PlanStore) : (s.setStore r).silenceOf i = s.silenceOf i := rfl
@[simp] theorem silenceOf_setSampler (i : StationId) (m : Sampler) : (s.setSampler m).silenceOf i = s.silenceOf i := rfl
@[simp] theorem silenceOf_useFree (i : StationId) : (s.useFree).silenceOf i = s.silenceOf i := rfl
@[simp] theorem silenceOf_withQueue (i : StationId) (q : List Instr) : (s.withQueue q).silenceOf i = s.silenceOf i := rfl

@[simp] theorem reach_setReach_self (i : ReachId) (v : Reach) : (s.setReach i v).reach i = v := Tab.get_set_self ..
theorem reach_setReach_ne {i j : ReachId} (v : Reach) (h : j ≠ i) : (s.setReach i v).reach j = s.reach j :=
  Tab.get_set_ne _ v h
theorem reach_setReach (i j : ReachId) (v : Reach) : (s.setReach i v).reach j = if j = i then v else s.reach j := Tab.get_set ..
@[simp] theorem reach_setChan (i : ReachId) (g : Gate) (c : Channel) : (s.setChan g c).reach i = s.reach i := rfl
@[simp] theorem reach_setStation (i : ReachId) (k : StationId) (r : Station) : (s.setStation k r).reach i = s.reach i := rfl
@[simp] theorem reach_setSilence (i : ReachId) (k : StationId) (r : SilenceRec) : (s.setSilence k r).reach i = s.reach i := rfl
@[simp] theorem reach_setGang (i : ReachId) (k : GangId) (r : Gang) : (s.setGang k r).reach i = s.reach i := rfl
@[simp] theorem reach_setPortF (i : ReachId) (p : PortF) : (s.setPortF p).reach i = s.reach i := rfl
@[simp] theorem reach_setPortD (i : ReachId) (p : PortD) : (s.setPortD p).reach i = s.reach i := rfl
@[simp] theorem reach_setReport (i : ReachId) (r : Report) : (s.setReport r).reach i = s.reach i := rfl
@[simp] theorem reach_setStore (i : ReachId) (r : PlanStore) : (s.setStore r).reach i = s.reach i := rfl
@[simp] theorem reach_setSampler (i : ReachId) (m : Sampler) : (s.setSampler m).reach i = s.reach i := rfl
@[simp] theorem reach_useFree (i : ReachId) : (s.useFree).reach i = s.reach i := rfl
@[simp] theorem reach_withQueue (i : ReachId) (q : List Instr) : (s.withQueue q).reach i = s.reach i := rfl

@[simp] theorem gang_setGang_self (i : GangId) (v : Gang) : (s.setGang i v).gang i = v := Tab.get_set_self ..
theorem gang_setGang_ne {i j : GangId} (v : Gang) (h : j ≠ i) : (s.setGang i v).gang j = s.gang j :=
  Tab.get_set_ne _ v h
theorem gang_setGang (i j : GangId) (v : Gang) : (s.setGang i v).gang j = if j = i then v else s.gang j := Tab.get_set ..
@[simp] theorem gang_setChan (i : GangId) (g : Gate) (c : Channel) : (s.setChan g c).gang i = s.gang i := rfl
@[simp] theorem gang_setStation (i : GangId) (k : StationId) (r : Station) : (s.setStation k r).gang i = s.gang i := rfl
@[simp] theorem gang_setSilence (i : GangId) (k : StationId) (r : SilenceRec) : (s.setSilence k r).gang i = s.gang i := rfl
@[simp] theorem gang_setReach (i : GangId) (k : ReachId) (r : Reach) : (s.setReach k r).gang i = s.gang i := rfl
@[simp] theorem gang_setPortF (i : GangId) (p : PortF) : (s.setPortF p).gang i = s.gang i := rfl
@[simp] theorem gang_setPortD (i : GangId) (p : PortD) : (s.setPortD p).gang i = s.gang i := rfl
@[simp] theorem gang_setReport (i : GangId) (r : Report) : (s.setReport r).gang i = s.gang i := rfl
@[simp] theorem gang_setStore (i : GangId) (r : PlanStore) : (s.setStore r).gang i = s.gang i := rfl
@[simp] theorem gang_setSampler (i : GangId) (m : Sampler) : (s.setSampler m).gang i = s.gang i := rfl
@[simp] theorem gang_useFree (i : GangId) : (s.useFree).gang i = s.gang i := rfl
@[simp] theorem gang_withQueue (i : GangId) (q : List Instr) : (s.withQueue q).gang i = s.gang i := rfl

@[simp] theorem active_setChan (g : Gate) (c : Channel) : (s.setChan g c).active = s.active := rfl
@[simp] theorem gateEntry_setChan (i : Gate) (g : Gate) (c : Channel) : (s.setChan g c).gateEntry i = s.gateEntry i := rfl
@[simp] theorem stationEntry_setChan (i : StationId) (g : Gate) (c : Channel) : (s.setChan g c).stationEntry i = s.stationEntry i := rfl
@[simp] theorem gangEntry_setChan (i : GangId) (g : Gate) (c : Channel) : (s.setChan g c).gangEntry i = s.gangEntry i := rfl
@[simp] theorem reachEntry_setChan (i : ReachId) (g : Gate) (c : Channel) : (s.setChan g c).reachEntry i = s.reachEntry i := rfl
@[simp] theorem members_setChan (i : GangId) (g : Gate) (c : Channel) : (s.setChan g c).members i = s.members i := rfl
@[simp] theorem active_setStation (k : StationId) (r : Station) : (s.setStation k r).active = s.active := rfl
@[simp] theorem gateEntry_setStation (i : Gate) (k : StationId) (r : Station) : (s.setStation k r).gateEntry i = s.gateEntry i := rfl
@[simp] theorem stationEntry_setStation (i : StationId) (k : StationId) (r : Station) : (s.setStation k r).stationEntry i = s.stationEntry i := rfl
@[simp] theorem gangEntry_setStation (i : GangId) (k : StationId) (r : Station) : (s.setStation k r).gangEntry i = s.gangEntry i := rfl
@[simp] theorem reachEntry_setStation (i : ReachId) (k : StationId) (r : Station) : (s.setStation k r).reachEntry i = s.reachEntry i := rfl
@[simp] theorem members_setStation (i : GangId) (k : StationId) (r : Station) : (s.setStation k r).members i = s.members i := rfl
@[simp] theorem active_setSilence (k : StationId) (r : SilenceRec) : (s.setSilence k r).active = s.active := rfl
@[simp] theorem gateEntry_setSilence (i : Gate) (k : StationId) (r : SilenceRec) : (s.setSilence k r).gateEntry i = s.gateEntry i := rfl
@[simp] theorem stationEntry_setSilence (i : StationId) (k : StationId) (r : SilenceRec) : (s.setSilence k r).stationEntry i = s.stationEntry i := rfl
@[simp] theorem gangEntry_setSilence (i : GangId) (k : StationId) (r : SilenceRec) : (s.setSilence k r).gangEntry i = s.gangEntry i := rfl
@[simp] theorem reachEntry_setSilence (i : ReachId) (k : StationId) (r : SilenceRec) : (s.setSilence k r).reachEntry i = s.reachEntry i := rfl
@[simp] theorem members_setSilence (i : GangId) (k : StationId) (r : SilenceRec) : (s.setSilence k r).members i = s.members i := rfl
@[simp] theorem active_setReach (k : ReachId) (r : Reach) : (s.setReach k r).active = s.active := rfl
@[simp] theorem gateEntry_setReach (i : Gate) (k : ReachId) (r : Reach) : (s.setReach k r).gateEntry i = s.gateEntry i := rfl
@[simp] theorem stationEntry_setReach (i : StationId) (k : ReachId) (r : Reach) : (s.setReach k r).stationEntry i = s.stationEntry i := rfl
@[simp] theorem gangEntry_setReach (i : GangId) (k : ReachId) (r : Reach) : (s.setReach k r).gangEntry i = s.gangEntry i := rfl
@[simp] theorem reachEntry_setReach (i : ReachId) (k : ReachId) (r : Reach) : (s.setReach k r).reachEntry i = s.reachEntry i := rfl
@[simp] theorem members_setReach (i : GangId) (k : ReachId) (r : Reach) : (s.setReach k r).members i = s.members i := rfl
@[simp] theorem active_setGang (k : GangId) (r : Gang) : (s.setGang k r).active = s.active := rfl
@[simp] theorem gateEntry_setGang (i : Gate) (k : GangId) (r : Gang) : (s.setGang k r).gateEntry i = s.gateEntry i := rfl
@[simp] theorem stationEntry_setGang (i : StationId) (k : GangId) (r : Gang) : (s.setGang k r).stationEntry i = s.stationEntry i := rfl
@[simp] theorem gangEntry_setGang (i : GangId) (k : GangId) (r : Gang) : (s.setGang k r).gangEntry i = s.gangEntry i := rfl
@[simp] theorem reachEntry_setGang (i : ReachId) (k : GangId) (r : Gang) : (s.setGang k r).reachEntry i = s.reachEntry i := rfl
@[simp] theorem members_setGang (i : GangId) (k : GangId) (r : Gang) : (s.setGang k r).members i = s.members i := rfl
@[simp] theorem active_setPortF (p : PortF) : (s.setPortF p).active = s.active := rfl
@[simp] theorem gateEntry_setPortF (i : Gate) (p : PortF) : (s.setPortF p).gateEntry i = s.gateEntry i := rfl
@[simp] theorem stationEntry_setPortF (i : StationId) (p : PortF) : (s.setPortF p).stationEntry i = s.stationEntry i := rfl
@[simp] theorem gangEntry_setPortF (i : GangId) (p : PortF) : (s.setPortF p).gangEntry i = s.gangEntry i := rfl
@[simp] theorem reachEntry_setPortF (i : ReachId) (p : PortF) : (s.setPortF p).reachEntry i = s.reachEntry i := rfl
@[simp] theorem members_setPortF (i : GangId) (p : PortF) : (s.setPortF p).members i = s.members i := rfl
@[simp] theorem active_setPortD (p : PortD) : (s.setPortD p).active = s.active := rfl
@[simp] theorem gateEntry_setPortD (i : Gate) (p : PortD) : (s.setPortD p).gateEntry i = s.gateEntry i := rfl
@[simp] theorem stationEntry_setPortD (i : StationId) (p : PortD) : (s.setPortD p).stationEntry i = s.stationEntry i := rfl
@[simp] theorem gangEntry_setPortD (i : GangId) (p : PortD) : (s.setPortD p).gangEntry i = s.gangEntry i := rfl
@[simp] theorem reachEntry_setPortD (i : ReachId) (p : PortD) : (s.setPortD p).reachEntry i = s.reachEntry i := rfl
@[simp] theorem members_setPortD (i : GangId) (p : PortD) : (s.setPortD p).members i = s.members i := rfl
@[simp] theorem active_setReport (r : Report) : (s.setReport r).active = s.active := rfl
@[simp] theorem gateEntry_setReport (i : Gate) (r : Report) : (s.setReport r).gateEntry i = s.gateEntry i := rfl
@[simp] theorem stationEntry_setReport (i : StationId) (r : Report) : (s.setReport r).stationEntry i = s.stationEntry i := rfl
@[simp] theorem gangEntry_setReport (i : GangId) (r : Report) : (s.setReport r).gangEntry i = s.gangEntry i := rfl
@[simp] theorem reachEntry_setReport (i : ReachId) (r : Report) : (s.setReport r).reachEntry i = s.reachEntry i := rfl
@[simp] theorem members_setReport (i : GangId) (r : Report) : (s.setReport r).members i = s.members i := rfl
@[simp] theorem active_setSampler (m : Sampler) : (s.setSampler m).active = s.active := rfl
@[simp] theorem gateEntry_setSampler (i : Gate) (m : Sampler) : (s.setSampler m).gateEntry i = s.gateEntry i := rfl
@[simp] theorem stationEntry_setSampler (i : StationId) (m : Sampler) : (s.setSampler m).stationEntry i = s.stationEntry i := rfl
@[simp] theorem gangEntry_setSampler (i : GangId) (m : Sampler) : (s.setSampler m).gangEntry i = s.gangEntry i := rfl
@[simp] theorem reachEntry_setSampler (i : ReachId) (m : Sampler) : (s.setSampler m).reachEntry i = s.reachEntry i := rfl
@[simp] theorem members_setSampler (i : GangId) (m : Sampler) : (s.setSampler m).members i = s.members i := rfl
@[simp] theorem active_useFree : (s.useFree).active = s.active := rfl
@[simp] theorem gateEntry_useFree (i : Gate) : (s.useFree).gateEntry i = s.gateEntry i := rfl
@[simp] theorem stationEntry_useFree (i : StationId) : (s.useFree).stationEntry i = s.stationEntry i := rfl
@[simp] theorem gangEntry_useFree (i : GangId) : (s.useFree).gangEntry i = s.gangEntry i := rfl
@[simp] theorem reachEntry_useFree (i : ReachId) : (s.useFree).reachEntry i = s.reachEntry i := rfl
@[simp] theorem members_useFree (i : GangId) : (s.useFree).members i = s.members i := rfl
@[simp] theorem active_withQueue (q : List Instr) : (s.withQueue q).active = s.active := rfl
@[simp] theorem gateEntry_withQueue (i : Gate) (q : List Instr) : (s.withQueue q).gateEntry i = s.gateEntry i := rfl
@[simp] theorem stationEntry_withQueue (i : StationId) (q : List Instr) : (s.withQueue q).stationEntry i = s.stationEntry i := rfl
@[simp] theorem gangEntry_withQueue (i : GangId) (q : List Instr) : (s.withQueue q).gangEntry i = s.gangEntry i := rfl
@[simp] theorem reachEntry_withQueue (i : ReachId) (q : List Instr) : (s.withQueue q).reachEntry i = s.reachEntry i := rfl
@[simp] theorem members_withQueue (i : GangId) (q : List Instr) : (s.withQueue q).members i = s.members i := rfl
@[simp] theorem active_setStore (r : PlanStore) : (s.setStore r).active = r.active := rfl

@[simp] theorem setChan_chan_self (g : Gate) : s.setChan g (s.chan g) = s := by
  simp [State.setChan, State.chan]

@[simp] theorem setStation_station_self (k : StationId) : s.setStation k (s.station k) = s := by
  simp [State.setStation, State.station]

@[simp] theorem setGang_gang_self (c : GangId) : s.setGang c (s.gang c) = s := by
  simp [State.setGang, State.gang]

@[simp] theorem setSilence_silence_self (k : StationId) : s.setSilence k (s.silenceOf k) = s := by
  simp [State.setSilence, State.silenceOf]

end Sys2Proof.Machine
end

