-- ==== Sys2Proof/Laws/Frame.lean ====
section
/-! SUPPORT. What the shared operations leave alone, said once. A projection of the state is `Blind` when no move of a channel
(its state, start opening, dwell direction, tag and pending mark), no write of a gang, port F's queues or the report and no notice
changes it; `BlindReq` when no request does either; `Quiet` when no write of a channel at all does. Then no operation built of
these changes it. -/

namespace Sys2Proof.Machine

/-- A channel moved: its state, start opening, dwell direction, increment tag and pending mark written. -/
def Channel.moved (c : Channel) (st : ChanState) (start : Option Nat) (dir : Option Dir) (tag : Nat) (pend : Bool) : Channel :=
  { c with state := st, start := start, dwellDir := dir, tag := tag, silencePending := pend }

/-- A channel given a request: its governed target, source, clamp mark and pending mark written. -/
def Channel.given (c : Channel) (gov : Option Nat) (src : Source) (mark : ClampMark) (pend : Bool) : Channel :=
  { c with governed := gov, source := src, clamp := mark, silencePending := pend }

/-- A projection that no move of a channel, no write of a gang, port F's queues or the report and no notice changes. -/
structure Blind {β : Type} (π : State → β) : Prop where
  move : ∀ s g st start dir tag pend, π (s.setChan g ((s.chan g).moved st start dir tag pend)) = π s
  gang : ∀ s c r, π (s.setGang c r) = π s
  portF : ∀ s u r wu wr, π (s.setPortF { s.portF with urgent := u, routine := r, waitUrgent := wu, waitRoutine := wr }) = π s
  report : ∀ s r, π (s.setReport r) = π s
  own : ∀ s o, π (s.setPortD { s.portD with own := o }) = π s

/-- A projection that no request to a channel changes either. -/
structure BlindReq {β : Type} (π : State → β) : Prop extends Blind π where
  give : ∀ s g gov src mark pend, π (s.setChan g ((s.chan g).given gov src mark pend)) = π s

/-- A projection that no write of a channel at all, of a gang, port F's queues or the report and no notice changes. -/
structure Quiet {β : Type} (π : State → β) : Prop where
  chan : ∀ s g c, π (s.setChan g c) = π s
  gang : ∀ s c r, π (s.setGang c r) = π s
  portF : ∀ s u r wu wr, π (s.setPortF { s.portF with urgent := u, routine := r, waitUrgent := wu, waitRoutine := wr }) = π s
  report : ∀ s r, π (s.setReport r) = π s
  own : ∀ s o, π (s.setPortD { s.portD with own := o }) = π s

theorem Quiet.req {β : Type} {π : State → β} (q : Quiet π) : BlindReq π :=
  { move := fun _ _ _ _ _ _ _ => q.chan .., gang := q.gang, portF := q.portF, report := q.report, own := q.own,
    give := fun _ _ _ _ _ _ => q.chan .. }

/-- What `Quiet` projections cannot see: everything the state holds beside channels, gangs, port F, the report and
UP_OWN. -/
theorem quiet_pending : Quiet State.pending := ⟨fun _ _ _ => rfl, fun _ _ _ => rfl, fun _ _ _ _ _ => rfl, fun _ _ => rfl, fun _ _ => rfl⟩
theorem quiet_straps : Quiet State.straps := ⟨fun _ _ _ => rfl, fun _ _ _ => rfl, fun _ _ _ _ _ => rfl, fun _ _ => rfl, fun _ _ => rfl⟩
theorem quiet_fieldReady : Quiet State.fieldReady :=
  ⟨fun _ _ _ => rfl, fun _ _ _ => rfl, fun _ _ _ _ _ => rfl, fun _ _ => rfl, fun _ _ => rfl⟩
theorem quiet_node : Quiet State.node := ⟨fun _ _ _ => rfl, fun _ _ _ => rfl, fun _ _ _ _ _ => rfl, fun _ _ => rfl, fun _ _ => rfl⟩
theorem quiet_inbox : Quiet State.inbox := ⟨fun _ _ _ => rfl, fun _ _ _ => rfl, fun _ _ _ _ _ => rfl, fun _ _ => rfl, fun _ _ => rfl⟩
theorem quiet_stations : Quiet State.stations :=
  ⟨fun _ _ _ => rfl, fun _ _ _ => rfl, fun _ _ _ _ _ => rfl, fun _ _ => rfl, fun _ _ => rfl⟩
theorem quiet_silence : Quiet State.silence :=
  ⟨fun _ _ _ => rfl, fun _ _ _ => rfl, fun _ _ _ _ _ => rfl, fun _ _ => rfl, fun _ _ => rfl⟩
theorem quiet_reaches : Quiet State.reaches :=
  ⟨fun _ _ _ => rfl, fun _ _ _ => rfl, fun _ _ _ _ _ => rfl, fun _ _ => rfl, fun _ _ => rfl⟩
theorem quiet_rejects : Quiet State.rejects :=
  ⟨fun _ _ _ => rfl, fun _ _ _ => rfl, fun _ _ _ _ _ => rfl, fun _ _ => rfl, fun _ _ => rfl⟩
theorem quiet_clock : Quiet State.clock := ⟨fun _ _ _ => rfl, fun _ _ _ => rfl, fun _ _ _ _ _ => rfl, fun _ _ => rfl, fun _ _ => rfl⟩
theorem quiet_prescaler : Quiet State.prescaler :=
  ⟨fun _ _ _ => rfl, fun _ _ _ => rfl, fun _ _ _ _ _ => rfl, fun _ _ => rfl, fun _ _ => rfl⟩
theorem quiet_minuteDue : Quiet State.minuteDue :=
  ⟨fun _ _ _ => rfl, fun _ _ _ => rfl, fun _ _ _ _ _ => rfl, fun _ _ => rfl, fun _ _ => rfl⟩
theorem quiet_armed : Quiet State.armed := ⟨fun _ _ _ => rfl, fun _ _ _ => rfl, fun _ _ _ _ _ => rfl, fun _ _ => rfl, fun _ _ => rfl⟩
theorem quiet_store : Quiet State.store := ⟨fun _ _ _ => rfl, fun _ _ _ => rfl, fun _ _ _ _ _ => rfl, fun _ _ => rfl, fun _ _ => rfl⟩
theorem quiet_freeCount : Quiet State.freeCount :=
  ⟨fun _ _ _ => rfl, fun _ _ _ => rfl, fun _ _ _ _ _ => rfl, fun _ _ => rfl, fun _ _ => rfl⟩
/-- Port D but for its own frames. -/
theorem quiet_portD : Quiet fun s => (s.portD.fwd, s.portD.reserved, s.portD.lastFrom, s.portD.sending, s.portD.counts) :=
  ⟨fun _ _ _ => rfl, fun _ _ _ => rfl, fun _ _ _ _ _ => rfl, fun _ _ => rfl, fun _ _ => rfl⟩
/-- Port F but for its queues. -/
theorem quiet_portF : Quiet fun s => (s.portF.streak, s.portF.sending, s.portF.counts) :=
  ⟨fun _ _ _ => rfl, fun _ _ _ => rfl, fun _ _ _ _ _ => rfl, fun _ _ => rfl, fun _ _ => rfl⟩
/-- The ACTIVE plan. -/
theorem quiet_active : Quiet State.active := ⟨fun _ _ _ => rfl, fun _ _ _ => rfl, fun _ _ _ _ _ => rfl, fun _ _ => rfl, fun _ _ => rfl⟩

/-- Folding an operation that keeps a projection keeps it. -/
theorem forEach_keeps {α β : Type} {π : State → β} {f : α → State → State} (h : ∀ a s, π (f a s) = π s) (xs : List α)
    (s : State) : π (forEach xs f s) = π s := by
  induction xs generalizing s with
  | nil => rfl
  | cons x xs ih => exact (ih (f x s)).trans (h x s)

/-- Folding an operation that keeps a property keeps it. -/
theorem forEach_preserves {α : Type} {P : State → Prop} {f : α → State → State} (h : ∀ a s, P s → P (f a s))
    (xs : List α) (s : State) (hs : P s) : P (forEach xs f s) := by
  induction xs generalizing s with
  | nil => exact hs
  | cons x xs ih => exact ih (f x s) (h x s hs)

section blind

variable {β : Type} {π : State → β} (q : Blind π) (s : State)

include q

theorem Blind.notify (kind : NoticeKind) (subject : Subject) (d v : Nat) : π (s.notify kind subject d v) = π s := by
  unfold State.notify
  split
  · rw [q.report, q.own]
  · rw [q.report]

theorem Blind.setSampler (m : Sampler) : π (s.setSampler m) = π s := q.report ..

theorem Blind.endTrace (c : EndCause) : π (s.endTrace c) = π s := by
  unfold State.endTrace
  split
  · rfl
  · exact q.setSampler ..

theorem Blind.leaveWaits (g : Gate) : π (s.leaveWaits g) = π s := q.portF ..

theorem Blind.joinWait (g : Gate) (w : FieldQueue) : π (s.joinWait g w) = π s := by
  cases w <;> exact q.portF ..

theorem Blind.enter (g : Gate) (st : ChanState) : π (s.enter g st) = π s := by
  unfold State.enter
  simp only
  split
  · exact q.move s g st _ _ _ _
  · rw [q.leaveWaits]
    exact q.move s g st _ _ _ _

theorem Blind.noteEnqueued (g : Gate) : π (s.noteEnqueued g) = π s := by
  unfold State.noteEnqueued
  split
  · split
    · exact q.setSampler ..
    · rfl
  · rfl

theorem Blind.push (w : FieldQueue) (f : LineFrame) : π (s.setPortF (s.portF.push w f)) = π s := by
  cases w <;> exact q.portF ..

theorem Blind.startIncrement (g : Gate) (t : Nat) (w : FieldQueue) : π (s.startIncrement g t w) = π s := by
  unfold State.startIncrement
  simp only
  rw [q.noteEnqueued, q.push, q.enter]
  exact q.move s g (s.chan g).state _ _ _ _

theorem Blind.judge (g : Gate) : π (s.judge g) = π s := by
  unfold State.judge
  split
  · split
    · split
      · exact q.startIncrement ..
      · exact q.joinWait ..
    · exact q.leaveWaits ..
  · exact q.leaveWaits ..

theorem Blind.becomeHeld (c : GangId) (b : Gate) (quiet : Bool) : π (s.becomeHeld c b quiet) = π s := by
  unfold State.becomeHeld
  simp only
  split
  · rw [forEach_keeps (fun m t => q.enter t m _), forEach_keeps (fun m t => q.enter t m _), q.gang]
  · rw [q.notify, forEach_keeps (fun m t => q.enter t m _), forEach_keeps (fun m t => q.enter t m _), q.gang]

theorem Blind.freeMembers (ms : List Gate) : π (s.freeMembers ms) = π s := by
  unfold State.freeMembers
  refine forEach_keeps (fun m t => ?_) ms s
  split
  · exact q.enter ..
  · rfl

theorem Blind.releaseGang (c : GangId) (m : Gate) : π (s.releaseGang c m) = π s := by
  unfold State.releaseGang
  simp only
  rw [q.notify, q.freeMembers, q.gang]

theorem Blind.judgeHold (c : GangId) (m : Gate) : π (s.judgeHold c m) = π s := by
  unfold State.judgeHold
  split
  · exact q.becomeHeld ..
  · rfl
  · exact q.releaseGang ..
  · exact forEach_keeps (fun m t => q.enter t m _) _ _

theorem Blind.checkDwell (c : GangId) : π (s.checkDwell c) = π s := by
  unfold State.checkDwell
  split
  · split
    · rfl
    · exact q.gang ..
  · rfl

theorem Blind.checkTurn (c : GangId) (k : GangCause) (m : Option Gate) : π (s.checkTurn c k m) = π s := by
  unfold State.checkTurn
  split
  · split
    · rfl
    · rw [q.leaveWaits, q.gang]
  · rfl

theorem Blind.scan (c : GangId) (m : Option Gate) : π (s.scan c m) = π s := by
  unfold State.scan
  split
  · rw [q.judge, q.gang]
  · split
    · split
      · exact q.judge ..
      · rfl
    · rfl

theorem Blind.gangEvent (c : GangId) (k : GangCause) (m : Gate) : π (s.gangEvent c k m) = π s := by
  unfold State.gangEvent
  split
  · rw [q.scan, q.checkTurn, q.checkDwell, q.judgeHold]
  · rfl

theorem Blind.gangReview (k : GangCause) (c : GangId) : π (s.gangReview k c) = π s := by
  unfold State.gangReview
  split
  · rw [q.scan, q.checkTurn, q.checkDwell, q.judgeHold]
  · rfl

theorem Blind.gangReviews (k : GangCause) (cs : List GangId) : π (s.gangReviews k cs) = π s :=
  forEach_keeps (fun c t => q.gangReview t k c) cs s

theorem Blind.chanEvent (k : GangCause) (g : Gate) : π (s.chanEvent k g) = π s := by
  unfold State.chanEvent
  split
  · exact q.judge ..
  · exact q.gangEvent ..

theorem Blind.finish : π s.finish = π s := by
  unfold State.finish
  simp only
  split
  · exact q.portF ..
  · split <;> first
      | exact (q.endTrace ..).trans (q.portF ..)
      | exact q.portF ..
      | (split <;> first
          | exact (q.endTrace ..).trans (q.portF ..)
          | exact q.portF ..)

theorem Blind.gangDwellExpires (c : GangId) : π (s.gangDwellExpires c) = π s := by
  unfold State.gangDwellExpires
  split
  · split
    · simp only
      rw [q.gangEvent]
      split
      · rw [q.enter, q.gang]
      · rw [q.gang]
    · rfl
  · rfl

theorem Blind.changeOut (c : GangId) (g : Gate) (v : Bool) : π (s.changeOut c g v) = π s := by
  unfold State.changeOut
  simp only
  rw [q.gangEvent]
  split
  · rw [q.freeMembers, q.gang]
  · rw [q.gang]

theorem Blind.confirm (g : Gate) : π (s.confirm g) = π s := by
  unfold State.confirm
  simp only
  split
  · split
    · rw [q.enter, q.gang]
    · split
      · rw [q.enter, q.gang]
      · unfold State.confirmMember
        simp only
        split <;> rw [q.enter, q.gang]
  · split
    · exact q.enter ..
    · split <;> exact q.enter ..

theorem Blind.positionLocal (g : Gate) (b : Channel) (o : Nat) : π (s.positionLocal g b o) = π s := by
  unfold State.positionLocal
  split
  · rfl
  · rw [q.notify, q.enter]

theorem Blind.positionFault (g : Gate) (b : Channel) (o : Nat) : π (s.positionFault g b o) = π s := by
  unfold State.positionFault
  split
  · rfl
  · rw [q.notify, q.enter]

theorem Blind.stepTimesOut (g : Gate) : π (s.stepTimesOut g) = π s := by
  unfold State.stepTimesOut
  simp only
  split
  · rw [q.chanEvent, q.notify, q.enter]
  · rfl

theorem Blind.dwellExpires (g : Gate) : π (s.dwellExpires g) = π s := by
  unfold State.dwellExpires
  split
  · rw [q.chanEvent, q.enter]
  · rfl

theorem Blind.notifyClamp (g : Gate) (m : ClampMark) (src : Source) (r t : Nat) : π (s.notifyClamp g m src r t) = π s := by
  unfold State.notifyClamp
  split
  · rfl
  · exact q.notify ..

theorem Blind.surchargeReviews (k : StationId) (st : Stage) : π (s.surchargeReviews k st) = π s := by
  unfold State.surchargeReviews
  split
  · exact q.gangReviews ..
  · rfl

theorem Blind.silenceChannel (g : Gate) : π (s.silenceChannel g) = π s := by
  unfold State.silenceChannel
  split
  · exact q.enter ..
  · exact q.enter ..
  · exact q.move s g (s.chan g).state _ _ _ _
  · rfl

theorem Blind.leaveSilenceHold (g : Gate) : π (s.leaveSilenceHold g) = π s := by
  unfold State.leaveSilenceHold
  simp only
  split
  · rw [q.judge, q.enter]
  · rw [q.enter]

theorem Blind.dissolveGang (ms : List Gate) (c : GangId) : π (s.dissolveGang ms c) = π s := by
  unfold State.dissolveGang
  simp only
  rw [q.freeMembers]
  split
  · exact q.leaveWaits ..
  · rfl

theorem Blind.startGang (c : GangId) : π (s.startGang c) = π s := by
  unfold State.startGang
  simp only
  split
  · rw [q.becomeHeld, q.gang]
  · rw [q.gang]

theorem Blind.commitGang (old : Plan) (c : GangId) : π (s.commitGang old c) = π s := by
  unfold State.commitGang
  simp only
  split
  · split
    · rfl
    · rw [q.startGang, q.dissolveGang]
  · split
    · exact q.startGang ..
    · split
      · rw [q.gang, q.dissolveGang]
      · rfl

end blind

section req

variable {β : Type} {π : State → β} (q : BlindReq π) (s : State)

include q

theorem BlindReq.takeRequest (g : Gate) (o : Nat) (src : Source) (mark : ClampMark) : π (s.takeRequest g o src mark) = π s := by
  unfold State.takeRequest
  simp only
  split
  · rw [q.chanEvent]
    have h := q.give s g (some o) src mark false
    split <;> split <;> simpa [q.endTrace, q.enter, Channel.given] using h
  · rfl

theorem BlindReq.fillFrom (c : GangId) (head : Nat) (ms : List Gate) (left raised : Nat) :
    π (s.fillFrom c head ms left raised).1 = π s := by
  induction ms generalizing s left raised with
  | nil => rfl
  | cons m ms ih =>
    unfold State.fillFrom
    simp only
    split
    · rw [ih, q.takeRequest]
    · rw [ih]

theorem BlindReq.takeDeficit (k : StationId) (c : GangId) (d : Nat) : π (s.takeDeficit k c d) = π s := by
  unfold State.takeDeficit
  simp only
  rw [q.notify, q.fillFrom]

theorem BlindReq.takeTrip (g : Gate) (former : Option Nat) : π (s.takeTrip g former) = π s := by
  unfold State.takeTrip
  split
  · rfl
  · split
    · simp only
      split
      · exact q.takeDeficit ..
      · rfl
    · rfl

theorem BlindReq.clampAndTake (k : StationId) (g : Gate) (o : Nat) (src : Source) : π (s.clampAndTake k g o src) = π s := by
  unfold State.clampAndTake
  simp only
  rw [q.notifyClamp, q.takeRequest]

theorem BlindReq.takeSchedule (n g o : Nat) : π (s.takeSchedule n g o) = π s := by
  unfold State.takeSchedule
  split
  · exact q.notify ..
  · split
    · exact q.notify ..
    · exact q.clampAndTake ..
    · rfl

theorem BlindReq.giveFallback (k : StationId) (l : List (Gate × Nat)) (n : Nat) : π (s.giveFallback k l n).1 = π s := by
  induction l generalizing s n with
  | nil => rfl
  | cons x l ih =>
    obtain ⟨g, t⟩ := x
    unfold State.giveFallback
    rw [ih, q.clampAndTake]

theorem BlindReq.force (g : Gate) (o : Nat) : π (s.force g o) = π s := by
  unfold State.force
  simp only
  rw [q.chanEvent]
  have h := fun m => q.give s g (some (min o Config.fullOpening)) .force m false
  split <;> split <;> simpa [q.endTrace, q.enter, Channel.given] using h _

end req

section quiet

variable {β : Type} {π : State → β} (q : Quiet π) (s : State)

include q

theorem Quiet.notify (kind : NoticeKind) (subject : Subject) (d v : Nat) : π (s.notify kind subject d v) = π s := q.req.toBlind.notify ..
theorem Quiet.setSampler (m : Sampler) : π (s.setSampler m) = π s := q.req.toBlind.setSampler ..
theorem Quiet.endTrace (c : EndCause) : π (s.endTrace c) = π s := q.req.toBlind.endTrace ..
theorem Quiet.leaveWaits (g : Gate) : π (s.leaveWaits g) = π s := q.req.toBlind.leaveWaits ..
theorem Quiet.joinWait (g : Gate) (w : FieldQueue) : π (s.joinWait g w) = π s := q.req.toBlind.joinWait ..
theorem Quiet.enter (g : Gate) (st : ChanState) : π (s.enter g st) = π s := q.req.toBlind.enter ..
theorem Quiet.noteEnqueued (g : Gate) : π (s.noteEnqueued g) = π s := q.req.toBlind.noteEnqueued ..
theorem Quiet.startIncrement (g : Gate) (t : Nat) (w : FieldQueue) : π (s.startIncrement g t w) = π s := q.req.toBlind.startIncrement ..
theorem Quiet.judge (g : Gate) : π (s.judge g) = π s := q.req.toBlind.judge ..
theorem Quiet.becomeHeld (c : GangId) (b : Gate) (quiet : Bool) : π (s.becomeHeld c b quiet) = π s := q.req.toBlind.becomeHeld ..
theorem Quiet.freeMembers (ms : List Gate) : π (s.freeMembers ms) = π s := q.req.toBlind.freeMembers ..
theorem Quiet.releaseGang (c : GangId) (m : Gate) : π (s.releaseGang c m) = π s := q.req.toBlind.releaseGang ..
theorem Quiet.judgeHold (c : GangId) (m : Gate) : π (s.judgeHold c m) = π s := q.req.toBlind.judgeHold ..
theorem Quiet.checkDwell (c : GangId) : π (s.checkDwell c) = π s := q.req.toBlind.checkDwell ..
theorem Quiet.checkTurn (c : GangId) (k : GangCause) (m : Option Gate) : π (s.checkTurn c k m) = π s := q.req.toBlind.checkTurn ..
theorem Quiet.scan (c : GangId) (m : Option Gate) : π (s.scan c m) = π s := q.req.toBlind.scan ..
theorem Quiet.gangEvent (c : GangId) (k : GangCause) (m : Gate) : π (s.gangEvent c k m) = π s := q.req.toBlind.gangEvent ..
theorem Quiet.gangReview (k : GangCause) (c : GangId) : π (s.gangReview k c) = π s := q.req.toBlind.gangReview ..
theorem Quiet.gangReviews (k : GangCause) (cs : List GangId) : π (s.gangReviews k cs) = π s := q.req.toBlind.gangReviews ..
theorem Quiet.chanEvent (k : GangCause) (g : Gate) : π (s.chanEvent k g) = π s := q.req.toBlind.chanEvent ..
theorem Quiet.finish : π s.finish = π s := q.req.toBlind.finish ..
theorem Quiet.gangDwellExpires (c : GangId) : π (s.gangDwellExpires c) = π s := q.req.toBlind.gangDwellExpires ..
theorem Quiet.changeOut (c : GangId) (g : Gate) (v : Bool) : π (s.changeOut c g v) = π s := q.req.toBlind.changeOut ..
theorem Quiet.confirm (g : Gate) : π (s.confirm g) = π s := q.req.toBlind.confirm ..
theorem Quiet.positionLocal (g : Gate) (b : Channel) (o : Nat) : π (s.positionLocal g b o) = π s := q.req.toBlind.positionLocal ..
theorem Quiet.positionFault (g : Gate) (b : Channel) (o : Nat) : π (s.positionFault g b o) = π s := q.req.toBlind.positionFault ..
theorem Quiet.stepTimesOut (g : Gate) : π (s.stepTimesOut g) = π s := q.req.toBlind.stepTimesOut ..
theorem Quiet.dwellExpires (g : Gate) : π (s.dwellExpires g) = π s := q.req.toBlind.dwellExpires ..
theorem Quiet.notifyClamp (g : Gate) (m : ClampMark) (src : Source) (r t : Nat) : π (s.notifyClamp g m src r t) = π s := q.req.toBlind.notifyClamp ..
theorem Quiet.surchargeReviews (k : StationId) (st : Stage) : π (s.surchargeReviews k st) = π s := q.req.toBlind.surchargeReviews ..
theorem Quiet.silenceChannel (g : Gate) : π (s.silenceChannel g) = π s := q.req.toBlind.silenceChannel ..
theorem Quiet.leaveSilenceHold (g : Gate) : π (s.leaveSilenceHold g) = π s := q.req.toBlind.leaveSilenceHold ..
theorem Quiet.dissolveGang (ms : List Gate) (c : GangId) : π (s.dissolveGang ms c) = π s := q.req.toBlind.dissolveGang ..
theorem Quiet.startGang (c : GangId) : π (s.startGang c) = π s := q.req.toBlind.startGang ..
theorem Quiet.commitGang (old : Plan) (c : GangId) : π (s.commitGang old c) = π s := q.req.toBlind.commitGang ..
theorem Quiet.takeRequest (g : Gate) (o : Nat) (src : Source) (mark : ClampMark) : π (s.takeRequest g o src mark) = π s := q.req.takeRequest ..
theorem Quiet.fillFrom (c : GangId) (head : Nat) (ms : List Gate) (left raised : Nat) : π (s.fillFrom c head ms left raised).1 = π s := q.req.fillFrom ..
theorem Quiet.takeDeficit (k : StationId) (c : GangId) (d : Nat) : π (s.takeDeficit k c d) = π s := q.req.takeDeficit ..
theorem Quiet.takeTrip (g : Gate) (former : Option Nat) : π (s.takeTrip g former) = π s := q.req.takeTrip ..
theorem Quiet.clampAndTake (k : StationId) (g : Gate) (o : Nat) (src : Source) : π (s.clampAndTake k g o src) = π s := q.req.clampAndTake ..
theorem Quiet.takeSchedule (n g o : Nat) : π (s.takeSchedule n g o) = π s := q.req.takeSchedule ..
theorem Quiet.giveFallback (k : StationId) (l : List (Gate × Nat)) (n : Nat) : π (s.giveFallback k l n).1 = π s := q.req.giveFallback ..
theorem Quiet.force (g : Gate) (o : Nat) : π (s.force g o) = π s := q.req.force ..

theorem Quiet.positionClear (g : Gate) (b : Channel) (o : Nat) : π (s.positionClear g b o) = π s := by
  unfold State.positionClear
  simp only
  split
  · rfl
  · split <;> simp [q.notify, q.enter, q.chan]
  · rw [q.notify, q.enter, q.chan]
  · rw [q.notify, q.enter, q.chan]
  · split
    · exact q.confirm ..
    · rfl
  · rfl
  · rfl
  · rfl

theorem Quiet.positionTrip (g : Gate) (b : Channel) (o : Nat) : π (s.positionTrip g b o) = π s := by
  unfold State.positionTrip
  simp only
  split
  · split
    · exact q.chan ..
    · rw [q.takeTrip, q.notify, q.enter, q.chan]
  · exact q.positionFault ..

theorem Quiet.takePosition (g : Gate) (o : Nat) (flags : Byte) : π (s.takePosition g o flags) = π s := by
  unfold State.takePosition
  simp only
  split
  · rfl
  · rw [q.chanEvent]
    split
    · rw [q.positionClear, q.chan]
    · rw [q.positionLocal, q.chan]
    · rw [q.positionFault, q.chan]
    · rw [q.positionTrip, q.chan]

theorem Quiet.positionGoesStale (g : Gate) : π (s.positionGoesStale g) = π s := by
  unfold State.positionGoesStale
  simp only
  split
  · rw [q.chanEvent, q.notify]
    split
    · rw [q.chan]
    · rw [q.enter, q.chan]
  · rfl

theorem Quiet.commitChannel (old : Plan) (g : Gate) : π (s.commitChannel old g) = π s := by
  unfold State.commitChannel
  simp only
  split
  · rfl
  · split
    · rw [q.endTrace, q.leaveWaits, q.chan]
    · rw [q.leaveWaits, q.chan]

end quiet

end Sys2Proof.Machine
end

