-- ==== Sys2Proof/Laws/Events.lean ====
section
/-! SUPPORT. What the events of time leave alone: a projection that also sees no station, silence record, reach, armed mark and
owed minute's work is `Calm`, and no expiry, minute, frame or commit event of a block changes it. -/

namespace Sys2Proof.Machine

/-- A `Quiet` projection that sees no station, silence record, reach, armed mark and owed minute's work either. -/
structure Calm {β : Type} (π : State → β) : Prop extends Quiet π where
  station : ∀ s k r, π (s.setStation k r) = π s
  silence : ∀ s k r, π (s.setSilence k r) = π s
  reach : ∀ s k r, π (s.setReach k r) = π s
  armed : ∀ (s : State) a, π { s with armed := a } = π s
  due : ∀ (s : State) d, π { s with minuteDue := d } = π s
  tables : ∀ (s : State) x, π { s with stations := x } = π s

theorem calm_pending : Calm State.pending := ⟨quiet_pending, fun _ _ _ => rfl, fun _ _ _ => rfl, fun _ _ _ => rfl, fun _ _ => rfl, fun _ _ => rfl, fun _ _ => rfl⟩
theorem calm_straps : Calm State.straps := ⟨quiet_straps, fun _ _ _ => rfl, fun _ _ _ => rfl, fun _ _ _ => rfl, fun _ _ => rfl, fun _ _ => rfl, fun _ _ => rfl⟩
theorem calm_fieldReady : Calm State.fieldReady := ⟨quiet_fieldReady, fun _ _ _ => rfl, fun _ _ _ => rfl, fun _ _ _ => rfl, fun _ _ => rfl, fun _ _ => rfl, fun _ _ => rfl⟩
theorem calm_node : Calm State.node := ⟨quiet_node, fun _ _ _ => rfl, fun _ _ _ => rfl, fun _ _ _ => rfl, fun _ _ => rfl, fun _ _ => rfl, fun _ _ => rfl⟩
theorem calm_inbox : Calm State.inbox := ⟨quiet_inbox, fun _ _ _ => rfl, fun _ _ _ => rfl, fun _ _ _ => rfl, fun _ _ => rfl, fun _ _ => rfl, fun _ _ => rfl⟩
theorem calm_rejects : Calm State.rejects := ⟨quiet_rejects, fun _ _ _ => rfl, fun _ _ _ => rfl, fun _ _ _ => rfl, fun _ _ => rfl, fun _ _ => rfl, fun _ _ => rfl⟩
theorem calm_clock : Calm State.clock := ⟨quiet_clock, fun _ _ _ => rfl, fun _ _ _ => rfl, fun _ _ _ => rfl, fun _ _ => rfl, fun _ _ => rfl, fun _ _ => rfl⟩
theorem calm_prescaler : Calm State.prescaler := ⟨quiet_prescaler, fun _ _ _ => rfl, fun _ _ _ => rfl, fun _ _ _ => rfl, fun _ _ => rfl, fun _ _ => rfl, fun _ _ => rfl⟩
theorem calm_store : Calm State.store := ⟨quiet_store, fun _ _ _ => rfl, fun _ _ _ => rfl, fun _ _ _ => rfl, fun _ _ => rfl, fun _ _ => rfl, fun _ _ => rfl⟩
theorem calm_freeCount : Calm State.freeCount := ⟨quiet_freeCount, fun _ _ _ => rfl, fun _ _ _ => rfl, fun _ _ _ => rfl, fun _ _ => rfl, fun _ _ => rfl, fun _ _ => rfl⟩
/-- Port D but for its own frames. -/
theorem calm_portD : Calm fun s => (s.portD.fwd, s.portD.reserved, s.portD.lastFrom, s.portD.sending, s.portD.counts) := ⟨quiet_portD, fun _ _ _ => rfl, fun _ _ _ => rfl, fun _ _ _ => rfl, fun _ _ => rfl, fun _ _ => rfl, fun _ _ => rfl⟩
theorem calm_told : Calm State.told :=
  ⟨⟨fun _ _ _ => rfl, fun _ _ _ => rfl, fun _ _ _ _ _ => rfl, fun _ _ => rfl, fun _ _ => rfl⟩, fun _ _ _ => rfl, fun _ _ _ => rfl,
    fun _ _ _ => rfl, fun _ _ => rfl, fun _ _ => rfl, fun _ _ => rfl⟩
/-- The ACTIVE plan. -/
theorem calm_active : Calm State.active := ⟨quiet_active, fun _ _ _ => rfl, fun _ _ _ => rfl, fun _ _ _ => rfl, fun _ _ => rfl, fun _ _ => rfl, fun _ _ => rfl⟩

variable {β : Type} {π : State → β} (q : Calm π) (s : State)

include q

theorem Calm.raiseByMark (k : StationId) (i : Fin 2) (f : Stage) (l : Nat) : π (s.raiseByMark k i f l) = π s := by
  unfold State.raiseByMark
  simp only
  rw [q.notify, q.station]

theorem Calm.captureCrossing (k : StationId) (i : Fin 2) (r : Bool) (l : Nat) : π (s.captureCrossing k i r l) = π s := by
  unfold State.captureCrossing
  simp only
  split
  · split
    · rw [q.raiseByMark, q.notify, q.station]
    · rw [q.notify, q.station]
  · rw [q.notify, q.station]

theorem Calm.judgeMark (k : StationId) (p : Option Nat) (l : Nat) (i : Fin 2) : π (s.judgeMark k p l i) = π s := by
  unfold State.judgeMark
  simp only
  split
  · rfl
  · split
    · exact q.captureCrossing ..
    · split
      · exact q.captureCrossing ..
      · rfl

theorem Calm.takeHeadwater (k : StationId) (g l : Nat) (y : Quality) : π (s.takeHeadwater k g l y) = π s := by
  unfold State.takeHeadwater
  simp only
  rw [q.surchargeReviews, q.judgeMark, q.judgeMark, q.station]
  split
  · rw [q.notify, q.station]
  · rw [q.station]

theorem Calm.takeTailwater (k : StationId) (g l : Nat) (y : Quality) : π (s.takeTailwater k g l y) = π s := by
  unfold State.takeTailwater
  simp only
  split
  · rw [q.notify, q.station]
  · rw [q.station]

theorem Calm.takeGauge (g l y : Nat) : π (s.takeGauge g l y) = π s := by
  unfold State.takeGauge
  split
  · rfl
  · split
    · exact q.takeHeadwater ..
    · split
      · exact q.takeTailwater ..
      · rfl

theorem Calm.gaugeGoesStale (k : StationId) (r : GaugeRole) : π (s.gaugeGoesStale k r) = π s := by
  unfold State.gaugeGoesStale
  simp only
  split
  · rw [q.notify, q.station]
  · rfl

theorem Calm.outflowEvent (k : StationId) : π (s.outflowEvent k) = π s := by
  unfold State.outflowEvent
  split
  · exact q.station ..
  · rfl

theorem Calm.balanceEvent (k : StationId) (a h : Nat) : π (s.balanceEvent k a h) = π s := by
  unfold State.balanceEvent
  simp only
  split
  · split
    · rw [q.surchargeReviews]
      split <;> simp [q.notify, q.station]
    · exact q.station ..
  · rfl

theorem Calm.reseed (k : ReachId) (f : Nat) (c : ReseedCause) : π (s.reseed k f c) = π s := by
  unfold State.reseed
  simp only
  rw [q.notify, q.reach]

theorem Calm.advanceLine (k : ReachId) (f : Nat) : π (s.advanceLine k f) = π s := by
  unfold State.advanceLine
  simp only
  split
  · exact q.reach ..
  · rw [q.notify, q.reach]

theorem Calm.reachMinute (k : ReachId) : π (s.reachMinute k) = π s := by
  unfold State.reachMinute
  simp only
  split
  · split
    · exact q.reseed ..
    · rfl
  · exact q.advanceLine ..

theorem Calm.deliver (k : ReachId) : π (s.deliver k) = π s := by
  unfold State.deliver
  simp only
  split
  · rw [q.balanceEvent, q.reachMinute]
  · rfl

theorem Calm.restartSilence (k : StationId) : π (s.restartSilence k) = π s := by
  unfold State.restartSilence
  split
  · exact q.silence ..
  · rfl

theorem Calm.resumeStation (k : StationId) (t : Option Nat) (c : ResumeCause) : π (s.resumeStation k t c) = π s := by
  unfold State.resumeStation
  simp only
  rw [q.gangReviews, q.notify, forEach_keeps (fun g u => q.chan u g _), forEach_keeps (fun g u => q.chan u g _),
    forEach_keeps (fun g u => q.leaveSilenceHold u g), q.silence]

theorem Calm.activity (k : StationId) : π (s.activity k) = π s := by
  unfold State.activity
  split
  · exact q.restartSilence ..
  · exact q.resumeStation ..
  · rfl

theorem Calm.firstSilence (k : StationId) : π (s.firstSilence k) = π s := by
  unfold State.firstSilence
  simp only
  split
  · rw [q.gangReviews, q.notify, q.silence, forEach_keeps (fun g u => q.silenceChannel u g)]
  · rfl

theorem Calm.secondSilence (k : StationId) : π (s.secondSilence k) = π s := by
  unfold State.secondSilence
  simp only
  split
  · rw [q.notify, q.giveFallback, q.silence]
  · rfl

theorem Calm.disarm (n : Fin 32) (e : SchedEntry) : π (s.disarm n e) = π s := by
  unfold State.disarm
  split
  · exact q.armed ..
  · rfl

theorem Calm.fire (n : Fin 32) : π (s.fire n) = π s := by
  unfold State.fire
  simp only
  split
  · rw [q.takeSchedule, q.notify, q.disarm]
  · rfl

theorem Calm.minuteOutflow : π s.minuteOutflow = π s := by
  unfold State.minuteOutflow
  split
  · exact (q.due ..).trans (forEach_keeps (fun k u => q.outflowEvent u k) _ _)
  · rfl

theorem Calm.stationMinute (k : StationId) : π (s.stationMinute k) = π s := by
  unfold State.stationMinute
  split
  · exact q.balanceEvent ..
  · exact q.deliver ..

theorem Calm.minuteBalance : π s.minuteBalance = π s := by
  unfold State.minuteBalance
  split
  · rfl
  · exact (q.stationMinute ..).trans (q.due ..)

theorem Calm.minuteSchedule : π s.minuteSchedule = π s := by
  unfold State.minuteSchedule
  split
  · exact (forEach_keeps (fun n u => q.fire u n) _ _).trans (q.due ..)
  · rfl

/-- An event that time makes due leaves a `Calm` projection as it is. -/
theorem Calm.takeDue (e : DueEvent) : π (s.takeDue e) = π s := by
  cases e with
  | positionStale g => exact q.positionGoesStale ..
  | stepTimeout g => exact q.stepTimesOut ..
  | dwellExpiry g => exact q.dwellExpires ..
  | gangDwellExpiry c => exact q.gangDwellExpires ..
  | gaugeStale k role => exact q.gaugeGoesStale ..
  | silence k =>
    show π (if (s.silenceOf k).level = .l0 then s.firstSilence k else s.secondSilence k) = π s
    split
    · exact q.firstSilence ..
    · exact q.secondSilence ..
  | outflow => exact q.minuteOutflow ..
  | balance => exact q.minuteBalance ..
  | schedule => exact q.minuteSchedule ..

theorem Calm.sample (k : StationId) (g : Gate) (f : SetpointFields) (t : Nat) (m : ClampMark) (w : Nat × Nat) (e : Bool) :
    π (s.sample k g f t m w e) = π s := by
  unfold State.sample
  simp only
  split
  · rfl
  · split <;> exact q.setSampler ..

theorem Calm.admitSetpoint (k : StationId) (g : Gate) (f : SetpointFields) : π (s.admitSetpoint k g f) = π s := by
  unfold State.admitSetpoint
  simp only
  rw [q.notifyClamp, q.sample, q.activity, q.takeRequest]

theorem Calm.commitReach (old : Plan) (k : ReachId) : π (s.commitReach old k) = π s := by
  unfold State.commitReach
  simp only
  split
  · split
    · rfl
    · split
      · exact q.reach ..
      · exact q.reseed ..
  · split
    · exact q.reach ..
    · split
      · exact q.reach ..
      · rfl

theorem Calm.commitSilence (old : Plan) (k : StationId) : π (s.commitSilence old k) = π s := by
  unfold State.commitSilence
  simp only
  split
  · split
    · exact q.silence ..
    · split
      · exact q.silence ..
      · exact q.resumeStation ..
  · split
    · exact q.silence ..
    · split
      · split
        · exact q.silence ..
        · rw [q.notify, q.silence]
      · rfl

/-- A commit's events of the blocks leave a `Calm` projection as it is. -/
theorem Calm.takePlan (old : Plan) : π (s.takePlan old) = π s := by
  unfold State.takePlan
  simp only
  rw [q.armed, forEach_keeps (fun k u => q.commitSilence u old k), q.gangReviews,
    forEach_keeps (fun c u => q.commitGang u old c), forEach_keeps (fun k u => q.commitReach u old k)]
  unfold State.commitStations
  rw [q.tables, forEach_keeps (fun g u => q.commitChannel u old g)]

end Sys2Proof.Machine
end

