-- ==== Sys2Proof/Laws/Settled.lean ====
section
/-! SUPPORT. The end of an event: when it changes nothing (a settled state), and that every event's end is settled. -/

namespace Sys2Proof.Machine

/-- The channel's state lets the trace of a command it carries go on (R169). -/
def State.traceGoesOn (s : State) (g : Gate) : Bool :=
  match (s.chan g).state with
  | .step _ _ => true
  | .dwell _ => true
  | .idle => s.hasWork g
  | _ => false

/-- The end of an event settles the wait lists and leaves the rest of port F as it is. -/
theorem finish_portF (s : State) :
    s.finish.portF
      = { s.portF with waitUrgent := s.portF.waitUrgent.settle, waitRoutine := s.portF.waitRoutine.settle } := by
  unfold State.finish
  simp only
  split
  · rfl
  · split <;> first
      | (unfold State.endTrace; split <;> rfl)
      | rfl
      | (split <;> first | rfl | (unfold State.endTrace; split <;> rfl))

/-- The end of an event keeps the channels. -/
theorem finish_chans (s : State) : s.finish.chans = s.chans := by
  unfold State.finish
  simp only
  split
  · rfl
  · split <;> first
      | (unfold State.endTrace; split <;> rfl)
      | rfl
      | (split <;> first | rfl | (unfold State.endTrace; split <;> rfl))

/-- The end of an event keeps UP_OWN and the gap mark. -/
theorem finish_portD (s : State) : s.finish.portD = s.portD := by
  unfold State.finish
  simp only
  split
  · rfl
  · split <;> first
      | (unfold State.endTrace; split <;> rfl)
      | rfl
      | (split <;> first | rfl | (unfold State.endTrace; split <;> rfl))

/-- A trace that is still followed after the end of an event was followed before it and goes on. -/
theorem finish_tagged (s : State) (t : Trace) (h : s.finish.report.sampler.tagged = some t) :
    s.report.sampler.tagged = some t ∧ s.traceGoesOn t.gate = true := by
  unfold State.finish at h
  simp only at h
  generalize hp : s.setPortF _ = s' at h
  have hr : s'.report = s.report := by rw [← hp]; rfl
  have hc : s'.chan = s.chan := by rw [← hp]; rfl
  have hw : s'.hasWork = s.hasWork := by rw [← hp]; rfl
  rw [hr] at h
  have he : ∀ c x, s.report.sampler.tagged = some x → (s'.endTrace c).report.sampler.tagged = none := by
    intro c x hx
    unfold State.endTrace
    rw [hr, hx]
    rfl
  split at h
  · next h0 => rw [hr, h0] at h; cases h
  · next t' h0 =>
    rw [hc] at h
    unfold State.traceGoesOn
    split at h
    case h_6 hst =>
      rw [hw] at h
      split at h
      · next hk =>
        rw [hr, h0] at h
        cases h
        exact ⟨h0, by rw [hst]; exact hk⟩
      · rw [he _ _ h0] at h; cases h
    case h_7 hst => rw [hr, h0] at h; cases h; exact ⟨h0, by rw [hst]⟩
    case h_8 hst => rw [hr, h0] at h; cases h; exact ⟨h0, by rw [hst]⟩
    all_goals rw [he _ _ h0] at h; cases h

/-- A state is settled when no waiter is fresh and the trace being followed, if any, goes on. -/
theorem settled_iff (s : State) :
    s.settled ↔ s.portF.waitUrgent.fresh = [] ∧ s.portF.waitRoutine.fresh = []
      ∧ ∀ t, s.report.sampler.tagged = some t → s.traceGoesOn t.gate = true := by
  constructor
  · intro h
    have hp := congrArg State.portF h
    rw [finish_portF] at hp
    refine ⟨?_, ?_, ?_⟩
    · rw [← congrArg (fun p => p.waitUrgent.fresh) hp]; rfl
    · rw [← congrArg (fun p => p.waitRoutine.fresh) hp]; rfl
    · intro t ht
      exact (finish_tagged s t (by rw [show s.finish = s from h]; exact ht)).2
  · rintro ⟨hu, hr, ht⟩
    have hw : ∀ w : WaitList, w.fresh = [] → w.settle = w := by
      rintro ⟨a, b⟩ rfl
      simp [WaitList.settle]
    unfold State.settled State.finish
    simp only
    rw [hw _ hu, hw _ hr]
    show (match s.report.sampler.tagged with | none => s | some t => _) = s
    split
    · rfl
    · next t h0 =>
      have := ht t h0
      unfold State.traceGoesOn at this
      split <;> simp_all only [Bool.false_eq_true, chan_setPortF]
      · exact if_pos this
      · rfl
      · rfl

/-- The end of every event is settled. -/
theorem settled_finish (s : State) : s.finish.settled := by
  rw [settled_iff]
  refine ⟨?_, ?_, ?_⟩
  · rw [finish_portF]; rfl
  · rw [finish_portF]; rfl
  · intro t ht
    have h := (finish_tagged s t ht).2
    have hc := finish_chans s
    have ha : s.finish.active = s.active := quiet_active.finish s
    unfold State.traceGoesOn State.hasWork State.gateEntry State.chan at *
    rw [hc, ha]
    exact h

/-- A settled state stays settled when port F's wait lists, the command followed, the channels and the ACTIVE plan do. -/
theorem State.settled.of_same {s t : State} (h : s.settled) (hu : t.portF.waitUrgent = s.portF.waitUrgent)
    (hr : t.portF.waitRoutine = s.portF.waitRoutine) (ht : t.report.sampler.tagged = s.report.sampler.tagged)
    (hc : t.chans = s.chans) (ha : t.active = s.active) : t.settled := by
  rw [settled_iff] at h ⊢
  rw [hu, hr, ht]
  refine ⟨h.1, h.2.1, fun x hx => ?_⟩
  have := h.2.2 x hx
  unfold State.traceGoesOn State.hasWork State.gateEntry State.chan at *
  rw [hc, ha]
  exact this

/-- What a command answers from a settled state is that state itself. -/
theorem done_of_settled {s : State} (h : s.settled) : done s = .next s := by
  unfold done
  rw [show s.finish = s from h]

end Sys2Proof.Machine
end

