-- ==== Sys2Proof/Laws/Keeps.lean ====
section
/-! SUPPORT. Properties that every operation keeps, said once: a property that survives each write of a record, each notice and each
frame placed where there is room is kept by every event of the blocks (`Keeps`), and two such properties, that the own frames
placed stay in UP_OWN and that every queue fits its places. -/

namespace Sys2Proof.Machine

/-- A property that no write of a record, no change of port F's wait lists, no frame pushed into a queue with room and no notice
breaks. -/
structure Keeps (P : State → Prop) : Prop where
  chan : ∀ s g c, P s → P (s.setChan g c)
  gang : ∀ s c r, P s → P (s.setGang c r)
  station : ∀ s k r, P s → P (s.setStation k r)
  silence : ∀ s k r, P s → P (s.setSilence k r)
  reach : ∀ s k r, P s → P (s.setReach k r)
  armed : ∀ (s : State) a, P s → P { s with armed := a }
  due : ∀ (s : State) d, P s → P { s with minuteDue := d }
  tables : ∀ (s : State) x, P s → P { s with stations := x }
  waits : ∀ s u r, P s → P (s.setPortF { s.portF with waitUrgent := u, waitRoutine := r })
  push : ∀ s w f, s.portF.room w = true → P s → P (s.setPortF (s.portF.push w f))
  report : ∀ s r, P s → P (s.setReport r)
  notice : ∀ s kind subject d v, P s → P (s.notify kind subject d v)

/-- Folding an operation that keeps a property keeps it, given as the last argument. -/
theorem forEach_P {α : Type} {P : State → Prop} {f : α → State → State} {xs : List α} {s : State}
    (h : ∀ a t, P t → P (f a t)) (hs : P s) : P (forEach xs f s) := forEach_preserves h xs s hs

section keeps

variable {P : State → Prop} (q : Keeps P) {s : State}

include q

theorem Keeps.setSampler (m : Sampler) (h : P s) : P (s.setSampler m) := by
  exact q.report _ _ h

theorem Keeps.endTrace (c : EndCause) (h : P s) : P (s.endTrace c) := by
  unfold State.endTrace
  with_reducible
    repeat' first
      | exact h
      | split
      | apply q.setSampler

theorem Keeps.leaveWaits (g : Gate) (h : P s) : P (s.leaveWaits g) := by
  exact q.waits _ _ _ h

theorem Keeps.joinWait (g : Gate) (w : FieldQueue) (h : P s) : P (s.joinWait g w) := by
  cases w <;> exact q.waits _ _ _ h

theorem Keeps.enter (g : Gate) (st : ChanState) (h : P s) : P (s.enter g st) := by
  unfold State.enter
  simp only
  with_reducible
    repeat' first
      | exact h
      | split
      | apply q.chan
      | apply q.leaveWaits

theorem Keeps.noteEnqueued (g : Gate) (h : P s) : P (s.noteEnqueued g) := by
  unfold State.noteEnqueued
  with_reducible
    repeat' first
      | exact h
      | split
      | apply q.setSampler

omit q in
/-- Entering a state leaves the rooms of port F's queues. -/
theorem room_enter (g : Gate) (st : ChanState) (w : FieldQueue) : (s.enter g st).portF.room w = s.portF.room w := by
  unfold State.enter
  simp only
  split
  · rfl
  · cases w <;> rfl

theorem Keeps.startIncrement (g : Gate) (t : Nat) (w : FieldQueue) (hr : s.portF.room w = true) (h : P s) :
    P (s.startIncrement g t w) := by
  unfold State.startIncrement
  simp only
  apply q.noteEnqueued
  apply q.push
  · rw [room_enter]
    cases w <;> exact hr
  · exact q.enter _ _ (q.chan _ _ _ h)

theorem Keeps.judge (g : Gate) (h : P s) : P (s.judge g) := by
  unfold State.judge
  split
  · split
    · split
      · next hr => exact q.startIncrement _ _ _ hr h
      · exact q.joinWait _ _ h
    · exact q.leaveWaits _ h
  · exact q.leaveWaits _ h

theorem Keeps.becomeHeld (c : GangId) (b : Gate) (quiet : Bool) (h : P s) : P (s.becomeHeld c b quiet) := by
  unfold State.becomeHeld
  simp only
  with_reducible
    repeat' first
      | exact h
      | split
      | apply q.notice
      | apply (forEach_P fun _ _ hh => q.enter _ _ hh)
      | apply q.gang

theorem Keeps.freeMembers (ms : List Gate) (h : P s) : P (s.freeMembers ms) := by
  unfold State.freeMembers
  refine forEach_P (fun m t ht => ?_) h
  split
  · exact q.enter _ _ ht
  · exact ht

theorem Keeps.releaseGang (c : GangId) (m : Gate) (h : P s) : P (s.releaseGang c m) := by
  unfold State.releaseGang
  simp only
  with_reducible
    repeat' first
      | exact h
      | split
      | apply q.notice
      | apply q.freeMembers
      | apply q.gang

theorem Keeps.judgeHold (c : GangId) (m : Gate) (h : P s) : P (s.judgeHold c m) := by
  unfold State.judgeHold
  with_reducible
    repeat' first
      | exact h
      | split
      | apply q.becomeHeld
      | apply q.releaseGang
      | apply (forEach_P fun _ _ hh => q.enter _ _ hh)

theorem Keeps.checkDwell (c : GangId) (h : P s) : P (s.checkDwell c) := by
  unfold State.checkDwell
  with_reducible
    repeat' first
      | exact h
      | split
      | apply q.gang

theorem Keeps.checkTurn (c : GangId) (k : GangCause) (m : Option Gate) (h : P s) : P (s.checkTurn c k m) := by
  unfold State.checkTurn
  with_reducible
    repeat' first
      | exact h
      | split
      | apply q.leaveWaits
      | apply q.gang

theorem Keeps.scan (c : GangId) (m : Option Gate) (h : P s) : P (s.scan c m) := by
  unfold State.scan
  with_reducible
    repeat' first
      | exact h
      | split
      | apply q.judge
      | apply q.gang

theorem Keeps.gangEvent (c : GangId) (k : GangCause) (m : Gate) (h : P s) : P (s.gangEvent c k m) := by
  unfold State.gangEvent
  with_reducible
    repeat' first
      | exact h
      | split
      | apply q.scan
      | apply q.checkTurn
      | apply q.checkDwell
      | apply q.judgeHold

theorem Keeps.gangReview (k : GangCause) (c : GangId) (h : P s) : P (s.gangReview k c) := by
  unfold State.gangReview
  with_reducible
    repeat' first
      | exact h
      | split
      | apply q.scan
      | apply q.checkTurn
      | apply q.checkDwell
      | apply q.judgeHold

theorem Keeps.gangReviews (k : GangCause) (cs : List GangId) (h : P s) : P (s.gangReviews k cs) := by
  exact forEach_P (fun c t ht => q.gangReview k c ht) h

theorem Keeps.chanEvent (k : GangCause) (g : Gate) (h : P s) : P (s.chanEvent k g) := by
  unfold State.chanEvent
  with_reducible
    repeat' first
      | exact h
      | split
      | apply q.judge
      | apply q.gangEvent

theorem Keeps.finish (h : P s) : P (s.finish) := by
  unfold State.finish
  simp only
  with_reducible
    repeat' first
      | exact h
      | split
      | apply q.endTrace
      | apply q.waits

theorem Keeps.gangDwellExpires (c : GangId) (h : P s) : P (s.gangDwellExpires c) := by
  unfold State.gangDwellExpires
  simp only
  with_reducible
    repeat' first
      | exact h
      | split
      | apply q.gangEvent
      | apply q.enter
      | apply q.gang

theorem Keeps.changeOut (c : GangId) (g : Gate) (v : Bool) (h : P s) : P (s.changeOut c g v) := by
  unfold State.changeOut
  simp only
  with_reducible
    repeat' first
      | exact h
      | split
      | apply q.gangEvent
      | apply q.freeMembers
      | apply q.gang

theorem Keeps.confirm (g : Gate) (h : P s) : P (s.confirm g) := by
  unfold State.confirm State.confirmMember
  simp only
  with_reducible
    repeat' first
      | exact h
      | split
      | apply q.enter
      | apply q.gang

theorem Keeps.positionLocal (g : Gate) (b : Channel) (o : Nat) (h : P s) : P (s.positionLocal g b o) := by
  unfold State.positionLocal
  with_reducible
    repeat' first
      | exact h
      | split
      | apply q.notice
      | apply q.enter

theorem Keeps.positionFault (g : Gate) (b : Channel) (o : Nat) (h : P s) : P (s.positionFault g b o) := by
  unfold State.positionFault
  with_reducible
    repeat' first
      | exact h
      | split
      | apply q.notice
      | apply q.enter

theorem Keeps.stepTimesOut (g : Gate) (h : P s) : P (s.stepTimesOut g) := by
  unfold State.stepTimesOut
  simp only
  with_reducible
    repeat' first
      | exact h
      | split
      | apply q.chanEvent
      | apply q.notice
      | apply q.enter

theorem Keeps.dwellExpires (g : Gate) (h : P s) : P (s.dwellExpires g) := by
  unfold State.dwellExpires
  with_reducible
    repeat' first
      | exact h
      | split
      | apply q.chanEvent
      | apply q.enter

theorem Keeps.notifyClamp (g : Gate) (m : ClampMark) (src : Source) (r t : Nat) (h : P s) : P (s.notifyClamp g m src r t) := by
  unfold State.notifyClamp
  with_reducible
    repeat' first
      | exact h
      | split
      | apply q.notice

theorem Keeps.surchargeReviews (k : StationId) (st : Stage) (h : P s) : P (s.surchargeReviews k st) := by
  unfold State.surchargeReviews
  with_reducible
    repeat' first
      | exact h
      | split
      | apply q.gangReviews

theorem Keeps.silenceChannel (g : Gate) (h : P s) : P (s.silenceChannel g) := by
  unfold State.silenceChannel
  with_reducible
    repeat' first
      | exact h
      | split
      | apply q.enter
      | apply q.chan

theorem Keeps.leaveSilenceHold (g : Gate) (h : P s) : P (s.leaveSilenceHold g) := by
  unfold State.leaveSilenceHold
  simp only
  with_reducible
    repeat' first
      | exact h
      | split
      | apply q.judge
      | apply q.enter

theorem Keeps.dissolveGang (ms : List Gate) (c : GangId) (h : P s) : P (s.dissolveGang ms c) := by
  unfold State.dissolveGang
  simp only
  with_reducible
    repeat' first
      | exact h
      | split
      | apply q.freeMembers
      | apply q.leaveWaits

theorem Keeps.startGang (c : GangId) (h : P s) : P (s.startGang c) := by
  unfold State.startGang
  simp only
  with_reducible
    repeat' first
      | exact h
      | split
      | apply q.becomeHeld
      | apply q.gang

theorem Keeps.commitGang (old : Plan) (c : GangId) (h : P s) : P (s.commitGang old c) := by
  unfold State.commitGang
  simp only
  with_reducible
    repeat' first
      | exact h
      | split
      | apply q.startGang
      | apply q.dissolveGang
      | apply q.gang

theorem Keeps.takeRequest (g : Gate) (o : Nat) (src : Source) (mark : ClampMark) (h : P s) : P (s.takeRequest g o src mark) := by
  unfold State.takeRequest
  simp only
  with_reducible
    repeat' first
      | exact h
      | split
      | apply q.chanEvent
      | apply q.endTrace
      | apply q.enter
      | apply q.chan

theorem Keeps.fillFrom (c : GangId) (head : Nat) (ms : List Gate) (left raised : Nat) (h : P s) :
    P (s.fillFrom c head ms left raised).1 := by
  induction ms generalizing s left raised with
  | nil => exact h
  | cons m ms ih =>
    unfold State.fillFrom
    simp only
    split
    · exact ih _ _ (q.takeRequest _ _ _ _ h)
    · exact ih _ _ h

theorem Keeps.takeDeficit (k : StationId) (c : GangId) (d : Nat) (h : P s) : P (s.takeDeficit k c d) := by
  unfold State.takeDeficit
  simp only
  with_reducible
    repeat' first
      | exact h
      | split
      | apply q.notice
      | apply q.fillFrom

theorem Keeps.takeTrip (g : Gate) (former : Option Nat) (h : P s) : P (s.takeTrip g former) := by
  unfold State.takeTrip
  simp only
  with_reducible
    repeat' first
      | exact h
      | split
      | apply q.takeDeficit

theorem Keeps.clampAndTake (k : StationId) (g : Gate) (o : Nat) (src : Source) (h : P s) : P (s.clampAndTake k g o src) := by
  unfold State.clampAndTake
  simp only
  with_reducible
    repeat' first
      | exact h
      | split
      | apply q.notifyClamp
      | apply q.takeRequest

theorem Keeps.takeSchedule (n g o : Nat) (h : P s) : P (s.takeSchedule n g o) := by
  unfold State.takeSchedule
  with_reducible
    repeat' first
      | exact h
      | split
      | apply q.notice
      | apply q.clampAndTake

theorem Keeps.giveFallback (k : StationId) (l : List (Gate × Nat)) (n : Nat) (h : P s) : P (s.giveFallback k l n).1 := by
  induction l generalizing s n with
  | nil => exact h
  | cons x l ih =>
    obtain ⟨g, t⟩ := x
    unfold State.giveFallback
    exact ih _ (q.clampAndTake _ _ _ _ h)

theorem Keeps.force (g : Gate) (o : Nat) (h : P s) : P (s.force g o) := by
  unfold State.force
  simp only
  with_reducible
    repeat' first
      | exact h
      | split
      | apply q.chanEvent
      | apply q.endTrace
      | apply q.enter
      | apply q.chan

theorem Keeps.positionClear (g : Gate) (b : Channel) (o : Nat) (h : P s) : P (s.positionClear g b o) := by
  unfold State.positionClear
  simp only
  with_reducible
    repeat' first
      | exact h
      | split
      | apply q.notice
      | apply q.confirm
      | apply q.enter
      | apply q.chan

theorem Keeps.positionTrip (g : Gate) (b : Channel) (o : Nat) (h : P s) : P (s.positionTrip g b o) := by
  unfold State.positionTrip
  simp only
  with_reducible
    repeat' first
      | exact h
      | split
      | apply q.takeTrip
      | apply q.notice
      | apply q.positionFault
      | apply q.enter
      | apply q.chan

theorem Keeps.takePosition (g : Gate) (o : Nat) (flags : Byte) (h : P s) : P (s.takePosition g o flags) := by
  unfold State.takePosition
  simp only
  with_reducible
    repeat' first
      | exact h
      | split
      | apply q.chanEvent
      | apply q.positionClear
      | apply q.positionLocal
      | apply q.positionFault
      | apply q.positionTrip
      | apply q.chan

theorem Keeps.positionGoesStale (g : Gate) (h : P s) : P (s.positionGoesStale g) := by
  unfold State.positionGoesStale
  simp only
  with_reducible
    repeat' first
      | exact h
      | split
      | apply q.chanEvent
      | apply q.notice
      | apply q.enter
      | apply q.chan

theorem Keeps.commitChannel (old : Plan) (g : Gate) (h : P s) : P (s.commitChannel old g) := by
  unfold State.commitChannel
  simp only
  with_reducible
    repeat' first
      | exact h
      | split
      | apply q.endTrace
      | apply q.leaveWaits
      | apply q.chan

theorem Keeps.raiseByMark (k : StationId) (i : Fin 2) (f : Stage) (l : Nat) (h : P s) : P (s.raiseByMark k i f l) := by
  unfold State.raiseByMark
  simp only
  with_reducible
    repeat' first
      | exact h
      | split
      | apply q.notice
      | apply q.station

theorem Keeps.captureCrossing (k : StationId) (i : Fin 2) (r : Bool) (l : Nat) (h : P s) : P (s.captureCrossing k i r l) := by
  unfold State.captureCrossing
  simp only
  with_reducible
    repeat' first
      | exact h
      | split
      | apply q.raiseByMark
      | apply q.notice
      | apply q.station

theorem Keeps.judgeMark (k : StationId) (p : Option Nat) (l : Nat) (i : Fin 2) (h : P s) : P (s.judgeMark k p l i) := by
  unfold State.judgeMark
  simp only
  with_reducible
    repeat' first
      | exact h
      | split
      | apply q.captureCrossing

theorem Keeps.takeHeadwater (k : StationId) (g l : Nat) (y : Quality) (h : P s) : P (s.takeHeadwater k g l y) := by
  unfold State.takeHeadwater
  simp only
  with_reducible
    repeat' first
      | exact h
      | split
      | apply q.surchargeReviews
      | apply q.judgeMark
      | apply q.notice
      | apply q.station

theorem Keeps.takeTailwater (k : StationId) (g l : Nat) (y : Quality) (h : P s) : P (s.takeTailwater k g l y) := by
  unfold State.takeTailwater
  simp only
  with_reducible
    repeat' first
      | exact h
      | split
      | apply q.notice
      | apply q.station

theorem Keeps.takeGauge (g l y : Nat) (h : P s) : P (s.takeGauge g l y) := by
  unfold State.takeGauge
  with_reducible
    repeat' first
      | exact h
      | split
      | apply q.takeHeadwater
      | apply q.takeTailwater

theorem Keeps.gaugeGoesStale (k : StationId) (r : GaugeRole) (h : P s) : P (s.gaugeGoesStale k r) := by
  unfold State.gaugeGoesStale
  simp only
  with_reducible
    repeat' first
      | exact h
      | split
      | apply q.notice
      | apply q.station

theorem Keeps.outflowEvent (k : StationId) (h : P s) : P (s.outflowEvent k) := by
  unfold State.outflowEvent
  with_reducible
    repeat' first
      | exact h
      | split
      | apply q.station

theorem Keeps.balanceEvent (k : StationId) (a x : Nat) (h : P s) : P (s.balanceEvent k a x) := by
  unfold State.balanceEvent
  simp only
  with_reducible
    repeat' first
      | exact h
      | split
      | apply q.surchargeReviews
      | apply q.notice
      | apply q.station

theorem Keeps.reseed (k : ReachId) (f : Nat) (c : ReseedCause) (h : P s) : P (s.reseed k f c) := by
  unfold State.reseed
  simp only
  with_reducible
    repeat' first
      | exact h
      | split
      | apply q.notice
      | apply q.reach

theorem Keeps.advanceLine (k : ReachId) (f : Nat) (h : P s) : P (s.advanceLine k f) := by
  unfold State.advanceLine
  simp only
  with_reducible
    repeat' first
      | exact h
      | split
      | apply q.notice
      | apply q.reach

theorem Keeps.reachMinute (k : ReachId) (h : P s) : P (s.reachMinute k) := by
  unfold State.reachMinute
  simp only
  with_reducible
    repeat' first
      | exact h
      | split
      | apply q.reseed
      | apply q.advanceLine

theorem Keeps.deliver (k : ReachId) (h : P s) : P (s.deliver k) := by
  unfold State.deliver
  simp only
  with_reducible
    repeat' first
      | exact h
      | split
      | apply q.balanceEvent
      | apply q.reachMinute

theorem Keeps.restartSilence (k : StationId) (h : P s) : P (s.restartSilence k) := by
  unfold State.restartSilence
  with_reducible
    repeat' first
      | exact h
      | split
      | apply q.silence

theorem Keeps.resumeStation (k : StationId) (t : Option Nat) (c : ResumeCause) (h : P s) : P (s.resumeStation k t c) := by
  unfold State.resumeStation
  simp only
  with_reducible
    repeat' first
      | exact h
      | split
      | apply q.gangReviews
      | apply q.notice
      | apply (forEach_P fun _ _ hh => q.chan _ _ _ hh)
      | apply (forEach_P fun _ _ hh => q.leaveSilenceHold _ hh)
      | apply q.silence

theorem Keeps.activity (k : StationId) (h : P s) : P (s.activity k) := by
  unfold State.activity
  with_reducible
    repeat' first
      | exact h
      | split
      | apply q.restartSilence
      | apply q.resumeStation

theorem Keeps.firstSilence (k : StationId) (h : P s) : P (s.firstSilence k) := by
  unfold State.firstSilence
  simp only
  with_reducible
    repeat' first
      | exact h
      | split
      | apply q.gangReviews
      | apply q.notice
      | apply q.silence
      | apply (forEach_P fun _ _ hh => q.silenceChannel _ hh)

theorem Keeps.secondSilence (k : StationId) (h : P s) : P (s.secondSilence k) := by
  unfold State.secondSilence
  simp only
  with_reducible
    repeat' first
      | exact h
      | split
      | apply q.notice
      | apply q.giveFallback
      | apply q.silence

theorem Keeps.disarm (n : Fin 32) (e : SchedEntry) (h : P s) : P (s.disarm n e) := by
  unfold State.disarm
  with_reducible
    repeat' first
      | exact h
      | split
      | apply q.armed

theorem Keeps.fire (n : Fin 32) (h : P s) : P (s.fire n) := by
  unfold State.fire
  simp only
  with_reducible
    repeat' first
      | exact h
      | split
      | apply q.takeSchedule
      | apply q.notice
      | apply q.disarm

theorem Keeps.minuteOutflow (h : P s) : P s.minuteOutflow := by
  unfold State.minuteOutflow
  split
  · exact q.due _ _ (forEach_P (fun k t ht => q.outflowEvent k ht) h)
  · exact h

theorem Keeps.minuteBalance (h : P s) : P s.minuteBalance := by
  unfold State.minuteBalance State.stationMinute
  split
  · exact h
  · split
    · exact q.balanceEvent _ _ _ (q.due _ _ h)
    · exact q.deliver _ (q.due _ _ h)

theorem Keeps.minuteSchedule (h : P s) : P s.minuteSchedule := by
  unfold State.minuteSchedule
  split
  · exact forEach_P (fun n t ht => q.fire n ht) (q.due _ _ h)
  · exact h

/-- An event that time makes due keeps the property. -/
theorem Keeps.takeDue (e : DueEvent) (h : P s) : P (s.takeDue e) := by
  cases e with
  | positionStale g => exact q.positionGoesStale _ h
  | stepTimeout g => exact q.stepTimesOut _ h
  | dwellExpiry g => exact q.dwellExpires _ h
  | gangDwellExpiry c => exact q.gangDwellExpires _ h
  | gaugeStale k role => exact q.gaugeGoesStale _ _ h
  | silence k =>
    show P (if (s.silenceOf k).level = .l0 then s.firstSilence k else s.secondSilence k)
    split
    · exact q.firstSilence _ h
    · exact q.secondSilence _ h
  | outflow => exact q.minuteOutflow h
  | balance => exact q.minuteBalance h
  | schedule => exact q.minuteSchedule h

theorem Keeps.sample (k : StationId) (g : Gate) (f : SetpointFields) (t : Nat) (m : ClampMark) (w : Nat × Nat) (e : Bool) (h : P s) : P (s.sample k g f t m w e) := by
  unfold State.sample
  simp only
  with_reducible
    repeat' first
      | exact h
      | split
      | apply q.setSampler

theorem Keeps.admitSetpoint (k : StationId) (g : Gate) (f : SetpointFields) (h : P s) : P (s.admitSetpoint k g f) := by
  unfold State.admitSetpoint
  simp only
  with_reducible
    repeat' first
      | exact h
      | split
      | apply q.notifyClamp
      | apply q.sample
      | apply q.activity
      | apply q.takeRequest

theorem Keeps.commitReach (old : Plan) (k : ReachId) (h : P s) : P (s.commitReach old k) := by
  unfold State.commitReach
  simp only
  with_reducible
    repeat' first
      | exact h
      | split
      | apply q.reseed
      | apply q.reach

theorem Keeps.commitSilence (old : Plan) (k : StationId) (h : P s) : P (s.commitSilence old k) := by
  unfold State.commitSilence
  simp only
  with_reducible
    repeat' first
      | exact h
      | split
      | apply q.resumeStation
      | apply q.notice
      | apply q.silence

theorem Keeps.takePlan (old : Plan) (h : P s) : P (s.takePlan old) := by
  unfold State.takePlan State.commitStations
  simp only
  apply q.armed
  apply forEach_P fun k t ht => q.commitSilence old k ht
  apply q.gangReviews
  apply forEach_P fun c t ht => q.commitGang old c ht
  apply forEach_P fun k t ht => q.commitReach old k ht
  apply q.tables
  exact forEach_P (fun g t ht => q.commitChannel old g ht) h

end keeps

/-- The own frames placed stay where they are, at the front of UP_OWN. -/
theorem keeps_own (l : List OwnFrame) : Keeps fun s => l <+: s.portD.own where
  chan _ _ _ h := h
  gang _ _ _ h := h
  station _ _ _ h := h
  silence _ _ _ h := h
  reach _ _ _ h := h
  armed _ _ h := h
  due _ _ h := h
  tables _ _ h := h
  waits _ _ _ h := h
  push _ _ _ _ h := h
  report _ _ h := h
  notice s kind subject d v h := by
    unfold State.notify
    split
    · exact h.trans (List.prefix_append ..)
    · exact h

/-- UP_OWN with its reserved places and the queues of port F keep within their places. -/
theorem keeps_fit : Keeps fun s => s.portD.own.length + s.portD.reserved ≤ 32 ∧ s.portF.urgent.length ≤ 16
    ∧ s.portF.routine.length ≤ 64 where
  chan _ _ _ h := h
  gang _ _ _ h := h
  station _ _ _ h := h
  silence _ _ _ h := h
  reach _ _ _ h := h
  armed _ _ h := h
  due _ _ h := h
  tables _ _ h := h
  waits _ _ _ h := h
  push s w f hr h := by
    cases w
    · exact ⟨h.1, by
        have : s.portF.urgent.length < 16 := of_decide_eq_true hr
        show (s.portF.urgent ++ [f]).length ≤ 16
        rw [List.length_append, List.length_singleton]
        exact this, h.2.2⟩
    · exact ⟨h.1, h.2.1, by
        have : s.portF.routine.length < 64 := of_decide_eq_true hr
        show (s.portF.routine ++ [f]).length ≤ 64
        rw [List.length_append, List.length_singleton]
        exact this⟩
  report _ _ h := h
  notice s kind subject d v h := by
    unfold State.notify
    split
    · next hr =>
      have : s.portD.own.length + s.portD.reserved < 32 := of_decide_eq_true hr
      refine ⟨?_, h.2⟩
      show (s.portD.own ++ [_]).length + s.portD.reserved ≤ 32
      rw [List.length_append, List.length_singleton]
      omega
    · exact h

/-- UP_OWN without room stays so. -/
theorem keeps_full : Keeps fun s => s.ownRoom = false where
  chan _ _ _ h := h
  gang _ _ _ h := h
  station _ _ _ h := h
  silence _ _ _ h := h
  reach _ _ _ h := h
  armed _ _ h := h
  due _ _ h := h
  tables _ _ h := h
  waits _ _ _ h := h
  push _ _ _ _ h := h
  report _ _ h := h
  notice s kind subject d v h := by
    unfold State.notify
    rw [h]
    exact h

/-- A notice for which UP_OWN has room stands in UP_OWN after it. -/
theorem notify_own (s : State) (kind : NoticeKind) (subject : Subject) (d v : Nat) (h : s.ownRoom = true) :
    (s.notify kind subject d v).portD.own = s.portD.own ++ [.notice ⟨kind, subject, s.now, d, v, s.report.gapMark⟩] := by
  unfold State.notify
  rw [if_pos h]
  rfl

/-- A notice is sent as the statements say it. -/
theorem notify_sent (s : State) (kind : NoticeKind) (subject : Subject) (d v : Nat) :
    NoticeSent s (s.notify kind subject d v) kind subject d v := by
  unfold NoticeSent State.notify
  split
  · exact ⟨rfl, rfl⟩
  · exact ⟨rfl, rfl⟩

end Sys2Proof.Machine
end

