-- ==== Sys2Proof/Laws/Lines.lean ====
section
/-! SUPPORT. The beginnings of frames on the lines: when one is due and when not, what they leave alone (`Lined`), and the
events that time makes due, taken one after another. -/

namespace Sys2Proof.Machine

/-- A transmission that was due on port D is being sent. -/
theorem beginD_sending {s : State} (h : s.dueD = true) : s.beginD.portD.sending.isSome = true := by
  unfold State.dueD PortD.choice at h
  unfold State.beginD PortD.choice
  cases hs : s.portD.sending <;> rw [hs] at h <;> cases hf : s.portD.fwd <;> cases ho : s.portD.own <;>
    cases hl : s.portD.lastFrom <;> simp_all

/-- A port that sends has no transmission due. -/
theorem dueD_of_sending {s : State} (h : s.portD.sending.isSome = true) : s.dueD = false := by
  unfold State.dueD
  cases hs : s.portD.sending <;> simp_all

/-- A port that sends, or on which nothing is due, begins nothing. -/
theorem beginD_of_not_due {s : State} (h : s.dueD = false) : s.beginD = s := by
  unfold State.dueD PortD.choice at h
  unfold State.beginD PortD.choice
  cases hs : s.portD.sending <;> rw [hs] at h <;> cases hf : s.portD.fwd <;> cases ho : s.portD.own <;>
    cases hl : s.portD.lastFrom <;> simp_all

/-- With no transmission due on port F, none begins. -/
theorem beginsF_of_not_due {s : State} (h : s.dueF = false) : s.beginsF = s := by
  unfold State.beginsF
  rw [h]
  rfl

/-- Judging leaves port D. -/
theorem judge_portD (s : State) (g : Gate) : (s.judge g).portD = s.portD := by
  have he : ∀ (u : State) g st, (u.enter g st).portD = u.portD := by
    intro u g st
    unfold State.enter
    simp only
    split <;> rfl
  have hn : ∀ (u : State) g, (u.noteEnqueued g).portD = u.portD := by
    intro u g
    unfold State.noteEnqueued
    with_reducible repeat' split
    all_goals rfl
  unfold State.judge
  split
  · split
    · split
      · unfold State.startIncrement
        simp only
        rw [hn]
        show (State.enter _ g _).portD = _
        rw [he]
        rfl
      · unfold State.joinWait
        split <;> rfl
    · rfl
  · rfl

/-- The queue port F chooses holds a frame. -/
theorem choice_frames {p : PortF} {q : FieldQueue} {n : Nat} (h : p.choice = some (q, n)) :
    ((p.frames q).head?).isSome = true := by
  suffices hx : ∀ x, p.choice = some x → ((p.frames x.1).head?).isSome = true from hx _ h
  intro x hx
  unfold PortF.choice at hx
  split at hx
  · cases hx
  · next hu _ => cases hx; show (p.urgent.head?).isSome = true; rw [hu]; rfl
  · next hu hr =>
    split at hx
    · cases hx; show (p.urgent.head?).isSome = true; rw [hu]; rfl
    · cases hx; show (p.routine.head?).isSome = true; rw [hr]; rfl
  · next hr => cases hx; show (p.routine.head?).isSome = true; rw [hr]; rfl

/-- After the transmission due on port F has begun none is due there, and port D is as before. -/
theorem beginsF_line (s : State) : s.beginsF.dueF = false ∧ s.beginsF.portD = s.portD := by
  unfold State.beginsF
  split
  · next h =>
    unfold State.beginF
    split
    · next q streak hc =>
      rw [if_pos h]
      simp only
      generalize hu : s.setPortF _ = u
      have hs : u.portF.sending.isSome = true := by
        rw [← hu]
        show ((s.portF.frames q).head?).isSome = true
        exact choice_frames hc
      have hd : u.portD = s.portD := by rw [← hu]; rfl
      have hcl : u.claimRoom q .channels = u := by unfold State.claimRoom; cases q <;> rfl
      rw [hcl]
      have h1 : (forEach (u.portF.waiting q).settled (fun g s => s.judge g) u).finish.portF.sending = u.portF.sending :=
        congrArg (fun x => x.2.1) ((quiet_portF.finish _).trans
          (forEach_keeps (π := fun s => (s.portF.streak, s.portF.sending, s.portF.counts))
            (fun g v => quiet_portF.judge v g) _ u))
      have h2 : (forEach (u.portF.waiting q).settled (fun g s => s.judge g) u).finish.portD = u.portD := by
        rw [finish_portD]
        exact forEach_keeps (π := State.portD) (fun g v => judge_portD v g) _ u
      refine ⟨?_, ?_⟩
      · unfold State.dueF
        rw [h1]
        cases hx : u.portF.sending <;> simp_all
      · rw [h2, hd]
    · next hc =>
      unfold State.dueF at h
      rw [hc] at h
      simp at h
  · next h => exact ⟨by simpa using h, rfl⟩

theorem beginsF_not_due (s : State) : s.beginsF.dueF = false ∧ s.beginsF.dueD = s.dueD :=
  ⟨(beginsF_line s).1, by unfold State.dueD; rw [(beginsF_line s).2]⟩

/-- A `Quiet` projection that sees neither port nor the free counter. -/
structure Lined {β : Type} (π : State → β) : Prop extends Quiet π where
  lineF : ∀ s p, π (s.setPortF p) = π s
  lineD : ∀ s p, π (s.setPortD p) = π s
  free : ∀ s : State, π s.useFree = π s

theorem lined_pending : Lined State.pending := ⟨quiet_pending, fun _ _ => rfl, fun _ _ => rfl, fun _ => rfl⟩
theorem lined_inbox : Lined State.inbox := ⟨quiet_inbox, fun _ _ => rfl, fun _ _ => rfl, fun _ => rfl⟩
theorem lined_stations : Lined State.stations := ⟨quiet_stations, fun _ _ => rfl, fun _ _ => rfl, fun _ => rfl⟩
theorem lined_reaches : Lined State.reaches := ⟨quiet_reaches, fun _ _ => rfl, fun _ _ => rfl, fun _ => rfl⟩
theorem lined_silence : Lined State.silence := ⟨quiet_silence, fun _ _ => rfl, fun _ _ => rfl, fun _ => rfl⟩
theorem lined_clock : Lined State.clock := ⟨quiet_clock, fun _ _ => rfl, fun _ _ => rfl, fun _ => rfl⟩
theorem lined_minuteDue : Lined State.minuteDue := ⟨quiet_minuteDue, fun _ _ => rfl, fun _ _ => rfl, fun _ => rfl⟩
theorem lined_store : Lined State.store := ⟨quiet_store, fun _ _ => rfl, fun _ _ => rfl, fun _ => rfl⟩
theorem lined_told : Lined State.told :=
  ⟨⟨fun _ _ _ => rfl, fun _ _ _ => rfl, fun _ _ _ _ _ => rfl, fun _ _ => rfl, fun _ _ => rfl⟩, fun _ _ => rfl, fun _ _ => rfl,
    fun _ => rfl⟩

section lined

variable {β : Type} {π : State → β} (q : Lined π) (s : State)

include q

theorem Lined.beginD : π s.beginD = π s := by
  unfold State.beginD
  split
  · split
    · exact q.lineD ..
    · exact (q.free _).trans (q.lineD ..)
    · rfl
  · rfl

theorem Lined.beginF (claim : Claim) (hc : claim = .channels) : π (s.beginF claim) = π s := by
  subst hc
  unfold State.beginF
  split
  · next w _ _ =>
    split
    · simp only
      refine (forEach_keeps (fun g v => q.judge v g) _ _).trans ?_
      cases w <;> exact q.lineF ..
    · rfl
  · rfl

theorem Lined.beginsF : π s.beginsF = π s := by
  unfold State.beginsF
  split
  · exact (q.finish _).trans (q.beginF s _ rfl)
  · rfl

/-- The beginnings of frames leave a `Lined` projection as it is. -/
theorem Lined.onLines : π s.onLines = π s := (q.beginsF _).trans (q.beginD s)

end lined

/-- Beginning a frame of port D keeps a settled state settled. -/
theorem beginD_settled {s : State} (h : s.settled) : s.beginD.settled := by
  have hp : s.beginD.portF = s.portF ∧ s.beginD.report = s.report ∧ s.beginD.chans = s.chans ∧ s.beginD.store = s.store := by
    unfold State.beginD
    split
    · split <;> exact ⟨rfl, rfl, rfl, rfl⟩
    · exact ⟨rfl, rfl, rfl, rfl⟩
  exact h.of_same (congrArg PortF.waitUrgent hp.1) (congrArg PortF.waitRoutine hp.1)
    (congrArg (fun r => r.sampler.tagged) hp.2.1) hp.2.2.1 (congrArg PlanStore.active hp.2.2.2)

theorem beginsF_settled {s : State} (h : s.settled) : s.beginsF.settled := by
  unfold State.beginsF
  split
  · exact settled_finish _
  · exact h

/-- The beginnings of frames keep a settled state settled, and none is due after them. -/
theorem onLines_settled {s : State} (h : s.settled) : s.onLines.settled := beginsF_settled (beginD_settled h)

theorem beginD_not_due (s : State) : s.beginD.dueD = false := by
  cases h : s.dueD with
  | true => exact dueD_of_sending (beginD_sending h)
  | false => rw [beginD_of_not_due h]; exact h

theorem onLines_not_due (s : State) : s.onLines.dueF = false ∧ s.onLines.dueD = false := by
  have h := beginsF_not_due s.beginD
  exact ⟨h.1, h.2.trans (beginD_not_due s)⟩

/-- Events that time makes due keep what each of them keeps. -/
theorem takeEach_preserves {P : State → Prop} {event : State → (State → State) → State}
    (h : ∀ e s, P s → s.isDue e = true → P (event s (fun s => s.takeDue e))) (es : List DueEvent) {s : State} (hs : P s) :
    P (s.takeEach event es) := by
  unfold State.takeEach
  refine forEach_preserves (fun e t ht => ?_) es s hs
  split
  · next hd => exact h e t ht hd
  · exact ht

/-- With none of the events due nothing happens. -/
theorem takeEach_of_none_due {s : State} {event : State → (State → State) → State} {es : List DueEvent}
    (h : ∀ e ∈ es, s.isDue e = false) : s.takeEach event es = s := by
  unfold State.takeEach forEach
  induction es with
  | nil => rfl
  | cons e es ih =>
    rw [List.foldl_cons]
    simp only
    rw [h e (List.mem_cons_self ..)]
    exact ih fun x hx => h x (List.mem_cons_of_mem _ hx)

end Sys2Proof.Machine
end

