-- ==== Sys2Proof/Laws/Requests.lean ====
section
/-! SUPPORT. How a management request is answered, said once: the place reserved and filled again, the request that is taken,
and the answer of one that is refused or that changes the state beside its reply. -/

namespace Sys2Proof.Machine

/-- Reserving a place and filling it leaves the request's answer and nothing else. -/
theorem placeReply_reserve (s : State) (p : List Byte) (status : Status) (results : List Byte) :
    s.reserve.placeReply p status results = s.answered p status results := rfl

/-- A request with the MANAGE right is handled by its own rule, whatever its reserved place. -/
theorem judgeRequest_asks {s : State} {p : List Byte} {r : Request} (h : s.asks p r) :
    s.reserve.judgeRequest p = s.reserve.handle r (reqArgs p) := by
  obtain ⟨_, _, hm, hr⟩ := h
  unfold State.judgeRequest
  rw [show s.reserve.active = s.active from rfl, if_pos hm, hr]

/-- A request that is no SET_CLOCK to be carried out, or that finds no minute owed, is taken at once. -/
theorem beforeTaking_of {s : State} {p : List Byte} (h : s.setsClock p = false ∨ s.minuteOwed = false) :
    s.beforeTaking p = s := by
  unfold State.beforeTaking
  rcases h with h | h <;> rw [h]
  · rfl
  · rw [Bool.and_false]; rfl

/-- Without room in UP_OWN no request is about to be taken. -/
theorem setsClock_without_room {s : State} {p : List Byte} (h : s.ownRoom = false) : s.setsClock p = false := by
  unfold State.setsClock
  rw [h]
  rfl

/-- A request of another kind is no SET_CLOCK. -/
theorem setsClock_of_other {s : State} {p : List Byte} (h : readRequest p ≠ .setClock) : s.setsClock p = false := by
  unfold State.setsClock
  rw [decide_eq_false h, Bool.and_false]
  rfl

/-- A request of an issuer without MANAGE is not carried out. -/
theorem setsClock_without_rights {s : State} {p : List Byte} (h : s.active.manages (reqIssuer p).toNat = false) :
    s.setsClock p = false := by
  unfold State.setsClock
  rw [h, Bool.and_false]
  rfl

/-- With a request at the front, room and no minute to take first, the Responder takes the request and goes on. -/
theorem serve_taken {s : State} {p : List Byte} {ps : List (List Byte)} (n : Nat) (hi : s.inbox = p :: ps)
    (ho : s.ownRoom = true) (hb : s.beforeTaking p = s) :
    State.serve (n + 1) s = State.serve n (s.respond p).betweenRequests := by
  rw [State.serve, hi]
  simp only
  rw [hb, if_pos ho]

/-- With an empty inbox or no room the Responder takes nothing. -/
theorem serve_idle {s : State} (n : Nat) (h : s.inbox = [] ∨ s.ownRoom = false) : State.serve n s = s := by
  cases n with
  | zero => rfl
  | succ n =>
    unfold State.serve
    split
    · rfl
    · next p ps hp =>
      rcases h with h | h
      · rw [hp] at h; cases h
      · simp only
        rw [beforeTaking_of (.inl (setsClock_without_room h)), h]
        rfl

/-- A row takes nothing from an empty inbox, without room, or when the oldest request is of another row. -/
theorem serveRow_idle {s : State} {row : Request → Bool}
    (h : s.inbox = [] ∨ s.ownRoom = false ∨ ∃ p, s.inbox.head? = some p ∧ row (readRequest p) = false) :
    s.serveRow row = s := by
  unfold State.serveRow
  split
  · rfl
  · next p rest hp =>
    split
    · rcases h with h | h | ⟨q, hq, hr⟩
      · exact serve_idle _ (.inl h)
      · exact serve_idle _ (.inr h)
      · next hrow =>
        rw [hp] at hq
        cases hq
        rw [hr] at hrow
        cases hrow
    · rfl

/-- The answer of a settled state is settled. -/
theorem answered_settled {s : State} (h : s.settled) (p : List Byte) (status : Status) (results : List Byte) :
    (s.answered p status results).settled :=
  h.of_same rfl rfl rfl rfl rfl

/-- A request that is not granted a RESTART is answered with what its rule leaves. -/
theorem respond_of_handle {s t : State} {p : List Byte} {r : Request} {status : Status} {results : List Byte}
    (ha : s.asks p r) (hh : s.reserve.handle r (reqArgs p) = { state := t.reserve, status := status, results := results })
    (hr : r ≠ .restart ∨ status ≠ .done) : s.respond p = (t.answered p status results).finish := by
  unfold State.respond
  simp only
  rw [judgeRequest_asks ha, hh]
  simp only
  rw [placeReply_reserve]
  unfold State.afterReply
  rw [if_neg]
  rintro ⟨h1, h2⟩
  rcases hr with h | h
  · exact h (ha.2.2.2.symm.trans h1)
  · exact h h2

/-- A request its rule refuses is answered, and nothing else changes. -/
theorem respond_of_refused {s : State} {p : List Byte} {r : Request} {status : Status} {results : List Byte} (hs : s.settled)
    (ha : s.asks p r) (hh : s.reserve.handle r (reqArgs p) = { state := s.reserve, status := status, results := results })
    (hr : r ≠ .restart ∨ status ≠ .done) : s.respond p = s.answered p status results := by
  rw [respond_of_handle ha hh hr]
  exact answered_settled hs p status results

/-- A request of an issuer without the MANAGE right is refused for it. -/
theorem respond_without_rights {s : State} {p : List Byte} (hs : s.settled)
    (hm : s.active.manages (reqIssuer p).toNat = false) : s.respond p = s.answered p .refusedRights [] := by
  unfold State.respond State.judgeRequest
  simp only
  rw [show s.reserve.active = s.active from rfl, hm]
  show ((s.reserve.placeReply p .refusedRights []).afterReply p .refusedRights).finish = _
  rw [placeReply_reserve]
  unfold State.afterReply
  rw [if_neg (by rintro ⟨_, h⟩; cases h)]
  exact answered_settled hs p _ _

end Sys2Proof.Machine
end

