-- ==== Sys2Proof/Laws/Begun.lean ====
section
/-! SUPPORT. What a request leaves alone (`Still`) and how the Responder takes it, and what comes around a command's event: that
after the transmissions due have begun none is due, and an event where none is due or no request is taken. -/

namespace Sys2Proof.Machine

/-- A `Calm` projection that sees neither the Plan Store, the clock nor the free counter. -/
structure Still {β : Type} (π : State → β) : Prop extends Calm π where
  store : ∀ s r, π (s.setStore r) = π s
  clock : ∀ (s : State) c n, π { s with clock := c, prescaler := n } = π s
  free : ∀ s : State, π s.useFree = π s

/-- What lies outside the blocks' records: the queue of commands, the pins, the node, the reject counts, the inbox, and the
ports but for the frames port F waits with and the part's own frames. -/
def State.outside (s : State) :=
  (s.pending, s.straps, s.fieldReady, s.node, s.rejects, s.inbox, s.told, s.portF.streak, s.portF.sending, s.portF.counts,
    s.portD.fwd, s.portD.reserved, s.portD.lastFrom, s.portD.sending, s.portD.counts)

theorem still_outside : Still State.outside where
  chan _ _ _ := rfl
  gang _ _ _ := rfl
  portF _ _ _ _ _ := rfl
  report _ _ := rfl
  own _ _ := rfl
  station _ _ _ := rfl
  silence _ _ _ := rfl
  reach _ _ _ := rfl
  armed _ _ := rfl
  due _ _ := rfl
  tables _ _ := rfl
  store _ _ := rfl
  clock _ _ _ := rfl
  free _ := rfl

/-- READ_ENTRY, CHECK, READ_COUNTS and RESTART leave the state to their reply. -/
theorem handleReadEntry_state (s : State) (args : List Byte) : (s.handleReadEntry args).state = s := by
  unfold State.handleReadEntry
  simp only
  with_reducible repeat' split
  all_goals rfl

theorem handleCheck_state (s : State) : s.handleCheck.state = s := by
  unfold State.handleCheck
  with_reducible repeat' split
  all_goals rfl

theorem handleReadCounts_state (s : State) (args : List Byte) : (s.handleReadCounts args).state = s := by
  unfold State.handleReadCounts
  split <;> rfl

theorem handleRestart_state (s : State) (args : List Byte) : (s.handleRestart args).state = s := by
  unfold State.handleRestart
  with_reducible repeat' split
  all_goals rfl

section still

variable {β : Type} {π : State → β} (q : Still π) (s : State)

include q

theorem Still.commitPlan : π s.commitPlan = π s := by
  unfold State.commitPlan
  simp only
  rw [q.notify, q.store, q.takePlan, q.store]

theorem Still.handleOpenLoad (args : List Byte) : π (s.handleOpenLoad args).state = π s := by
  unfold State.handleOpenLoad
  with_reducible repeat' split
  all_goals first | rfl | exact q.store ..

theorem Still.handleWriteEntry (args : List Byte) : π (s.handleWriteEntry args).state = π s := by
  unfold State.handleWriteEntry
  with_reducible repeat' split
  all_goals first | rfl | exact q.store ..

theorem Still.handleCopy : π (s.handleCopy).state = π s := by
  unfold State.handleCopy
  with_reducible repeat' split
  all_goals first | rfl | exact q.store ..

theorem Still.handleCommit : π (s.handleCommit).state = π s := by
  unfold State.handleCommit
  with_reducible repeat' split
  all_goals first | rfl | exact q.commitPlan ..

theorem Still.handleSetClock (args : List Byte) : π (s.handleSetClock args).state = π s := by
  unfold State.handleSetClock
  with_reducible repeat' split
  all_goals first | rfl | exact (q.notify ..).trans (q.clock ..)

theorem Still.handleResumeStation (args : List Byte) : π (s.handleResumeStation args).state = π s := by
  unfold State.handleResumeStation
  with_reducible repeat' split
  all_goals first | rfl | exact q.restartSilence .. | exact q.resumeStation ..

theorem Still.handleResumeGate (args : List Byte) : π (s.handleResumeGate args).state = π s := by
  unfold State.handleResumeGate
  with_reducible repeat' split
  all_goals first | rfl | exact (q.chanEvent ..).trans (q.enter ..)

theorem Still.handleForceGate (args : List Byte) : π (s.handleForceGate args).state = π s := by
  unfold State.handleForceGate
  with_reducible repeat' split
  all_goals first | rfl | exact q.force ..

theorem Still.handleSetMemberOut (args : List Byte) : π (s.handleSetMemberOut args).state = π s := by
  unfold State.handleSetMemberOut
  with_reducible repeat' split
  all_goals first | rfl | exact q.changeOut ..

theorem Still.handleReseedReach (args : List Byte) : π (s.handleReseedReach args).state = π s := by
  unfold State.handleReseedReach
  with_reducible repeat' split
  all_goals first | rfl | exact q.reseed ..

theorem Still.handleReadMarks (args : List Byte) : π (s.handleReadMarks args).state = π s := by
  unfold State.handleReadMarks
  simp only
  with_reducible repeat' split
  all_goals first | rfl | exact (q.free _).trans (q.station ..)

theorem Still.handleSnapshot (args : List Byte) : π (s.handleSnapshot args).state = π s := by
  unfold State.handleSnapshot
  with_reducible repeat' split
  all_goals first | rfl | exact q.report ..

theorem Still.handleReadSnapshot (args : List Byte) : π (s.handleReadSnapshot args).state = π s := by
  unfold State.handleReadSnapshot
  simp only
  with_reducible repeat' split
  all_goals first | rfl | exact q.free _

theorem Still.handleSetSampler (args : List Byte) : π (s.handleSetSampler args).state = π s := by
  unfold State.handleSetSampler
  with_reducible repeat' split
  all_goals first | rfl | exact q.setSampler ..

theorem Still.handleReadTrace (args : List Byte) : π (s.handleReadTrace args).state = π s := by
  unfold State.handleReadTrace
  with_reducible repeat' split
  all_goals first | rfl | exact q.setSampler ..

/-- A request, carried out or refused by its rule, leaves a `Still` projection as it is. -/
theorem Still.handle (r : Request) (args : List Byte) : π (s.handle r args).state = π s := by
  cases r
  case badKind => rfl
  case abandon => exact q.store ..
  case abandonCopy => exact q.store ..
  case readEntry => exact congrArg π (handleReadEntry_state ..)
  case check => exact congrArg π (handleCheck_state ..)
  case readCounts => exact congrArg π (handleReadCounts_state ..)
  case restart => exact congrArg π (handleRestart_state ..)
  case openLoad => exact q.handleOpenLoad ..
  case writeEntry => exact q.handleWriteEntry ..
  case copy => exact q.handleCopy ..
  case commit => exact q.handleCommit ..
  case setClock => exact q.handleSetClock ..
  case resumeStation => exact q.handleResumeStation ..
  case resumeGate => exact q.handleResumeGate ..
  case forceGate => exact q.handleForceGate ..
  case setMemberOut => exact q.handleSetMemberOut ..
  case reseedReach => exact q.handleReseedReach ..
  case readMarks => exact q.handleReadMarks ..
  case snapshot => exact q.handleSnapshot ..
  case readSnapshot => exact q.handleReadSnapshot ..
  case setSampler => exact q.handleSetSampler ..
  case readTrace => exact q.handleReadTrace ..

end still

/-- A request taken is out of the inbox, which a RESTART empties, and leaves port D sending what it sends unless it was a
RESTART. -/
theorem respond_inbox (s : State) (p : List Byte) :
    (s.respond p).inbox = [] ∨ ((s.respond p).inbox = s.inbox.drop 1 ∧ (s.respond p).portD.sending = s.portD.sending) := by
  have h := still_outside.handle s.reserve (readRequest p) (reqArgs p)
  have hj : (s.reserve.judgeRequest p).state.outside = s.reserve.outside := by
    unfold State.judgeRequest
    split
    · exact h
    · rfl
  unfold State.respond
  simp only
  rw [finish_portD, quiet_inbox.finish]
  unfold State.afterReply
  split
  · left
    unfold State.resetAll
    split <;> simp only [quiet_inbox.notify] <;> rfl
  · right
    exact ⟨congrArg (fun x => x.2.2.2.2.2.1) hj, congrArg (fun x => x.2.2.2.2.2.2.2.2.2.2.2.2.2.1) hj⟩

/-- The only request of the inbox leaves it empty. -/
theorem respond_only {s : State} {p : List Byte} (hi : s.inbox = [p]) : (s.respond p).inbox = [] := by
  rcases respond_inbox s p with h | h
  · exact h
  · rw [h.1, hi]; rfl

/-- Between two requests nothing happens when no second one waits. -/
theorem betweenRequests_of_empty {s : State} (h : s.inbox = []) : s.betweenRequests = s := by
  unfold State.betweenRequests
  rw [h]
  rfl

/-- The Responder takes the only request of the inbox and nothing else. -/
theorem serve_only {s : State} {p : List Byte} (n : Nat) (hi : s.inbox = [p]) (ho : s.ownRoom = true)
    (hb : s.beforeTaking p = s) : State.serve (n + 1) s = s.respond p := by
  rw [serve_taken n hi ho hb, betweenRequests_of_empty (respond_only hi)]
  exact serve_idle _ (.inl (respond_only hi))

/-- A row takes the only request of the inbox and nothing else. -/
theorem serveRow_only {s : State} {p : List Byte} {row : Request → Bool} (hi : s.inbox = [p]) (ho : s.ownRoom = true)
    (hr : row (readRequest p) = true) (hb : s.beforeTaking p = s) : s.serveRow row = s.respond p := by
  unfold State.serveRow
  rw [hi]
  simp only
  rw [if_pos hr]
  exact serve_only _ hi ho hb

/-- Port D is sending, or no request waits. -/
def State.lineTaken (s : State) : Prop := s.portD.sending.isSome = true ∨ s.inbox = []

theorem lineTaken_of {s t : State} (hs : t.portD.sending = s.portD.sending) (hi : t.inbox = s.inbox) (h : s.lineTaken) :
    t.lineTaken := by
  unfold State.lineTaken
  rw [hs, hi]
  exact h

/-- Beginning a frame of port D keeps a port that sends sending. -/
theorem beginD_of_sending {s : State} (h : s.portD.sending.isSome = true) : s.beginD = s :=
  beginD_of_not_due (dueD_of_sending h)

theorem onLines_lineTaken {s : State} (h : s.lineTaken) : s.onLines.lineTaken := by
  rcases h with h | h
  · left
    have hb : s.onLines.portD = s.portD := by
      unfold State.onLines
      rw [beginD_of_sending h]
      exact (beginsF_line s).2
    rw [hb]
    exact h
  · exact .inr ((lined_inbox.onLines s).trans h)

/-- What a `Calm` operation does keeps the line taken. -/
theorem takeDue_lineTaken (e : DueEvent) {s : State} (h : s.lineTaken) : (s.takeDue e).finish.lineTaken :=
  lineTaken_of (congrArg (fun x => x.2.2.2.1) ((quiet_portD.finish _).trans (calm_portD.takeDue s e)))
    ((quiet_inbox.finish _).trans (calm_inbox.takeDue s e)) h

/-- The work of a minute taken before a SET_CLOCK ends with every transmission due begun. -/
theorem beforeTaking_settled {s : State} (p : List Byte) (h : s.settled) : (s.beforeTaking p).settled := by
  unfold State.beforeTaking
  split
  · exact onLines_settled (takeEach_preserves (fun _ _ _ _ => settled_finish _) _ h)
  · exact h

theorem beforeTaking_lineTaken {s : State} (p : List Byte) (h : s.lineTaken) : (s.beforeTaking p).lineTaken := by
  unfold State.beforeTaking
  split
  · refine onLines_lineTaken (takeEach_preserves (P := State.lineTaken) (fun e t ht _ => ?_) _ h)
    exact takeDue_lineTaken e (onLines_lineTaken ht)
  · exact h

/-- What a request leaves, between two takings. -/
theorem betweenRequests_settled {s : State} (h : s.settled) : s.betweenRequests.settled := by
  unfold State.betweenRequests
  split
  · exact h
  · exact onLines_settled h

theorem betweenRequests_lineTaken {s : State} (h : s.lineTaken) : s.betweenRequests.lineTaken := by
  unfold State.betweenRequests
  split
  · exact h
  · exact onLines_lineTaken h

theorem respond_lineTaken {s : State} (p : List Byte) (h : s.lineTaken) : (s.respond p).lineTaken := by
  rcases respond_inbox s p with hr | ⟨hi, hs⟩
  · exact .inr hr
  · rcases h with h | h
    · exact .inl (hs ▸ h)
    · exact .inr (by rw [hi, h]; rfl)

/-- A property that requests, the work before a SET_CLOCK and the beginnings between keep is kept by the Responder's taking. -/
theorem serve_preserves {P : State → Prop} (hb : ∀ s p, P s → P (s.beforeTaking p))
    (hr : ∀ s p, P s → P (s.respond p).betweenRequests) (n : Nat) {s : State} (hs : P s) : P (State.serve n s) := by
  induction n generalizing s with
  | zero => exact hs
  | succ n ih =>
    unfold State.serve
    split
    · exact hs
    · simp only
      split
      · exact ih (hr _ _ (hb _ _ hs))
      · exact hb _ _ hs

/-- The Responder's taking ends settled. -/
theorem serve_settled (n : Nat) {s : State} (h : s.settled) : (State.serve n s).settled :=
  serve_preserves (P := State.settled) (fun _ p hs => beforeTaking_settled p hs)
    (fun _ _ _ => betweenRequests_settled (settled_finish _)) n h

/-- The Responder's taking leaves port D sending, or ends with an empty inbox. -/
theorem serve_lineTaken (n : Nat) {s : State} (h : s.lineTaken) : (State.serve n s).lineTaken :=
  serve_preserves (P := State.lineTaken) (fun _ p hs => beforeTaking_lineTaken p hs)
    (fun _ p hs => betweenRequests_lineTaken (respond_lineTaken p hs)) n h

/-- The transmission due on port D has begun: the port sends, or the Responder behind it has emptied the inbox. -/
theorem beginsD_lineTaken {s : State} (h : s.dueD = true) : s.beginsD.lineTaken := by
  have hb : s.beginD.lineTaken := .inl (beginD_sending h)
  unfold State.beginsD State.beginAndTell
  rw [if_pos h]
  refine lineTaken_of (congrArg PortD.sending (finish_portD _)) (quiet_inbox.finish _) ?_
  simp only
  split
  · exact serve_lineTaken _ (s := { s.beginD with told := false }) hb
  · exact hb

/-- With nothing due on port D none begins there. -/
theorem beginsD_of_not_due {s : State} (h : s.dueD = false) : s.beginsD = s := by
  unfold State.beginsD
  rw [h]
  rfl

/-- With an empty inbox the transmission due on port D begins and nothing else happens. -/
theorem beginsD_of_empty {s : State} (h : s.dueD = true) (hi : s.inbox = []) : s.beginsD.portD.sending.isSome = true := by
  unfold State.beginsD State.beginAndTell
  rw [if_pos h, finish_portD]
  simp only
  split
  · rw [serve_idle (s := { s.beginD with told := false }) _ (.inl ((lined_inbox.beginD s).trans hi))]
    exact beginD_sending h
  · exact beginD_sending h

/-- After the transmissions due on port D have begun none is due there. -/
theorem beginsD_not_due (s : State) : s.beginsD.beginsD.dueD = false := by
  cases h : s.dueD with
  | false => rw [beginsD_of_not_due h, beginsD_of_not_due h]; exact h
  | true =>
    cases h2 : s.beginsD.dueD with
    | false => rw [beginsD_of_not_due h2]; exact h2
    | true =>
      rcases beginsD_lineTaken h with h3 | h3
      · rw [dueD_of_sending h3] at h2; cases h2
      · exact dueD_of_sending (beginsD_of_empty h2 h3)

/-- After the transmissions due have begun none is due. -/
theorem begun_not_due (s : State) : s.begun.dueF = false ∧ s.begun.dueD = false := by
  unfold State.begun
  have h := beginsF_not_due s.beginsD.beginsD
  exact ⟨h.1, h.2.trans (beginsD_not_due s)⟩

/-- With no transmission due, none begins. -/
theorem begun_of_not_due {s : State} (hf : s.dueF = false) (hd : s.dueD = false) : s.begun = s := by
  unfold State.begun
  rw [beginsD_of_not_due hd, beginsD_of_not_due hd]
  exact beginsF_of_not_due hf

/-- Where every transmission due has begun, none begins again. -/
theorem begun_begun (s : State) : s.begun.begun = s.begun := begun_of_not_due (begun_not_due s).1 (begun_not_due s).2

/-- From a quiet state an event is the event's own effect and nothing else. -/
theorem runEvent_of_quiet {s : State} (h : s.quiet) (f : State → State) : s.runEvent f = (f s).finish := by
  unfold State.runEvent State.takeEvent
  rw [begun_of_not_due h.1.2.1 h.1.2.2, h.2]
  rfl

/-- From a quiet state a command of one event is that event's effect and nothing else. -/
theorem event_of_quiet {s : State} (h : s.quiet) (f : State → State) : s.event f = done (f s) := by
  unfold State.event done
  rw [runEvent_of_quiet h]

/-- The Responder that was not told of room takes nothing before an event. -/
theorem hear_of_untold {s : State} (h : s.told = false) : s.hear = s := by
  unfold State.hear
  rw [h]
  rfl

/-- From a quiet state an arrival is its own effect and nothing else. -/
theorem arrival_of_quiet {s : State} (h : s.quiet) (f : State → State) : s.arrival f = done (f s) := by
  have hb := begun_of_not_due h.1.2.1 h.1.2.2
  unfold State.arrival done
  rw [hb, hear_of_untold h.2, hb]

/-- An arrival is the arrival in the state where every transmission due has begun. -/
theorem arrival_begun (s : State) (f : State → State) : s.arrival f = s.begun.arrival f := by
  unfold State.arrival
  rw [begun_begun]

/-- A command's event is its event in the state where every transmission due has begun. -/
theorem event_begun (s : State) (f : State → State) : s.event f = s.begun.event f := by
  unfold State.event State.runEvent
  rw [begun_begun]

/-- The Responder that waits behind the next event takes what it can before an event that hands on no notice, and behind one that
does. -/
theorem event_of_told {s : State} (h : s.ready) (ht : s.told = true) (f : State → State) :
    s.event f = .next (
      let t := (f { s with told := false }).finish
      if s.noticeCount < t.noticeCount then State.serve t.inbox.length t else (f s.hear.begun).finish) := by
  unfold State.event State.runEvent State.takeEvent
  rw [begun_of_not_due h.2.1 h.2.2, if_pos ht]

/-- The row of the inbox's only request answers it, with UP_OWN having room and no minute to take first. -/
theorem row_answers {s u : State} {p : List Byte} {row : Request → Bool} (hs : s.ready) (hi : s.inbox = [p])
    (ho : s.ownRoom = true) (hr : row (readRequest p) = true) (hb : s.beforeTaking p = s) (hu : s.respond p = u) :
    s.row row = .next u := by
  have hf : (s.respond p).settled := settled_finish _
  unfold State.row done
  rw [begun_of_not_due hs.2.1 hs.2.2, serveRow_only hi ho hr hb, show (s.respond p).finish = s.respond p from hf, hu]

/-- No request is taken at an event: the Responder does not wait, and the inbox is empty or UP_OWN is full with port D
sending. -/
def State.undisturbed (s : State) : Prop :=
  s.told = false ∧ (s.inbox = [] ∨ (s.portD.sending.isSome = true ∧ s.ownRoom = false))

/-- Where no request is taken, the transmissions due begin and nothing else happens before an event. -/
theorem begun_of_undisturbed {s : State} (hs : s.settled) (h : s.undisturbed) : s.begun = s.onLines := by
  have hD : s.beginsD = s.beginD := by
    cases hd : s.dueD with
    | false => rw [beginsD_of_not_due hd, beginD_of_not_due hd]
    | true =>
      have hi : s.inbox = [] := by
        rcases h.2 with h' | h'
        · exact h'
        · rw [dueD_of_sending h'.1] at hd; cases hd
      have ht : ({ s.beginD with told := false } : State) = s.beginD := by
        rw [← (lined_told.beginD s).trans h.1]
      unfold State.beginsD State.beginAndTell
      rw [if_pos hd]
      simp only
      rw [ht, serve_idle _ (.inl ((lined_inbox.beginD s).trans hi)), ite_self]
      exact beginD_settled hs
  unfold State.begun
  rw [hD, beginsD_of_not_due (beginD_not_due s)]
  rfl

/-- Where no request is taken, a command of one event is its event behind the transmissions due. -/
theorem runEvent_of_undisturbed {s : State} (hs : s.settled) (h : s.undisturbed) (f : State → State) :
    s.runEvent f = (f s.onLines).finish := by
  unfold State.runEvent State.takeEvent
  rw [begun_of_undisturbed hs h, (lined_told.onLines s).trans h.1]
  rfl

/-- Where no request is taken, each of several events is its event behind the transmissions due. -/
theorem runWaiting_of_undisturbed {s : State} (hs : s.settled) (h : s.undisturbed) (f : State → State) :
    s.runWaiting f = (f s.onLines).finish := by
  unfold State.runWaiting
  simp only
  rw [begun_of_undisturbed hs h, (lined_told.onLines s).trans h.1]
  rfl

/-- An event that time makes due, behind the transmissions due, leaves no request taken where none was, and ends settled. -/
theorem takeDue_undisturbed {s : State} (h : s.undisturbed) (e : DueEvent) :
    (s.onLines.takeDue e).finish.settled ∧ (s.onLines.takeDue e).finish.undisturbed := by
  refine ⟨settled_finish _, ?_, ?_⟩
  · exact (calm_told.finish _).trans ((calm_told.takeDue _ e).trans ((lined_told.onLines s).trans h.1))
  · rcases h.2 with hi | ⟨hd, hr⟩
    · exact .inl ((calm_inbox.finish _).trans ((calm_inbox.takeDue _ e).trans ((lined_inbox.onLines s).trans hi)))
    · have hb : s.onLines.portD = s.portD := by
        unfold State.onLines
        rw [beginD_of_sending hd]
        exact (beginsF_line s).2
      refine .inr ⟨?_, keeps_full.finish (keeps_full.takeDue e ?_)⟩
      · have hs' : (s.onLines.takeDue e).portD.sending = s.onLines.portD.sending :=
          congrArg (fun x => x.2.2.2.1) (calm_portD.takeDue s.onLines e)
        rw [finish_portD, hs', hb]
        exact hd
      · unfold State.ownRoom
        rw [hb]
        exact hr

/-- With no Responder waiting, the events of a command are taken one after another. -/
theorem takeAll_of_untold {s : State} (h : s.told = false) (es : List DueEvent) :
    s.takeAll es = s.takeEach State.runWaiting es := by
  unfold State.takeAll
  rw [h]
  rfl

/-- With none of its events due a command of several does nothing. -/
theorem takeAll_of_none_due {s : State} {es : List DueEvent} (h : ∀ e ∈ es, s.isDue e = false) : s.takeAll es = s := by
  have ha : es.any s.isDue = false := List.any_eq_false.mpr fun e he => by rw [h e he]; decide
  unfold State.takeAll
  simp only
  rw [ha, Bool.and_false, if_neg (by decide)]
  exact takeEach_of_none_due h

/-- Where no request is taken, the events that time makes due leave what none of them and no beginning of a frame changes. -/
theorem takeAll_of_undisturbed {β : Type} {π : State → β} (ql : Lined π) (qc : Calm π) (es : List DueEvent) {s : State}
    (hs : s.settled) (h : s.undisturbed) :
    π (s.takeAll es) = π s ∧ (s.takeAll es).settled ∧ (s.takeAll es).undisturbed := by
  rw [takeAll_of_untold h.1]
  refine takeEach_preserves (P := fun t => π t = π s ∧ t.settled ∧ t.undisturbed) (fun e t ht _ => ?_) es ⟨rfl, hs, h⟩
  rw [runWaiting_of_undisturbed ht.2.1 ht.2.2]
  exact ⟨(qc.finish _).trans ((qc.takeDue _ e).trans ((ql.onLines t).trans ht.1)), takeDue_undisturbed ht.2.2 e⟩

end Sys2Proof.Machine
end

