-- ==== Sys2Proof/Tests/Slice0.lean ====
section
/-! SUPPORT. Tests: the well-formedness checks, the check value, worked cases of the rating arithmetic, single steps of the commands,
and for each statement with hypotheses states and operands that meet them, clause by clause. -/

namespace Sys2Proof.Tests

open Sys2Proof Sys2Proof.Machine

/-! ### A small plan and a state -/

def station (k comp count : Nat) : StationEntry :=
  { StationEntry.absent with
    present := 1, hwGauge := 2 * k, twGauge := 2 * k + 1, staleLimit := 600, pointCount := 2, qminEnv := 100, qmaxChan := 2000,
    qmaxDam := 4000, qPreFloor := 500, sWatch := 20000, sPre := 25000, sSur := 28000, hysteresis := 1000, horizon := 2,
    silenceCount := count, silenceBase := 10, compGang := comp, mark0 := { flags := 0xE1#8, level := 3500 },
    mark1 := { flags := 0xA0#8, level := 3600 },
    points := Tab.gen fun i => if i.1 = 0 then { level := 3000, storage := 10000 } else
      { level := 4000, storage := 30000 } }

/-- The discharge of a gate of this surface is its opening. -/
def surface : SurfaceEntry :=
  { SurfaceEntry.absent with
    present := 1, openingCount := 2, headCount := 1, openings := Tab.gen fun i => if i.1 = 0 then 0 else 1000,
    nodes := Tab.gen fun _ => Tab.gen fun i => if i.1 = 0 then 0 else 1000 }

def gate (kind dwellUp fallback : Nat) : GateEntry :=
  { present := 1, station := 0, kind := kind, surface := 0, stepUp := 50, stepDown := 50, dwellUp := dwellUp, dwellDown := 0,
    deadband := 5, stepTimeout := 10, staleLimit := 60, fallback := fallback }

/-- Station 0 with wicket gate 0, gang 0 of the spill gates 1 and 2, and sluice gate 3; station 1 below it. -/
def plan : Plan :=
  { Plan.empty with
    number := 41
    stations := Tab.gen fun k => if k.1 = 0 then station 0 0 2 else if k.1 = 1 then station 1 255 0 else StationEntry.absent
    reaches := Tab.gen fun k => if k.1 = 0 then { present := 1, tau := 2 } else ReachEntry.absent
    surfaces := Tab.gen fun f => if f.1 = 0 then surface else SurfaceEntry.absent
    gates := Tab.gen fun g => match g.1 with
      | 0 => gate 0 0 65535
      | 1 => gate 1 0 65535
      | 2 => gate 1 0 65535
      | 3 => gate 2 20 200
      | _ => GateEntry.absent
    gangs := Tab.gen fun c => if c.1 = 0 then
        { GangEntry.absent with present := 1, memberCount := 2, members := Tab.gen fun i => i.1 + 1, spread := 100,
                                dwellUp := 30, dwellDown := 0 }
      else GangEntry.absent
    auth := Tab.gen fun n => match n.1 with
      | 0 => { present := 1, issuer := 3, base := 0, mask := 0, rights := 7#8 }
      | 1 => { present := 1, issuer := 5, base := 16, mask := 48, rights := 1#8 }
      | 2 => { present := 1, issuer := 63, base := 0, mask := 0, rights := 4#8 }
      | _ => AuthEntry.absent
    sched := Tab.gen fun n => if n.1 = 0 then
        { present := 1, enables := 4#8, day := 0, hour := 0, minute := 0, mode := 0, gate := 3, opening := 400 }
      else SchedEntry.absent }

/-- The plan is ACTIVE, every bound channel in IDLE at 300 su with its target there. -/
def base : State :=
  { State.reset with
    portD := PortD.reset
    chans := Tab.gen fun g => if g.1 < 4 then
        { Channel.resetAs .idle with measured := some 300, governed := some 300 }
      else Channel.resetAs .unbound
    stations := Tab.gen fun k =>
      { Station.resetFor (plan.stations.get k) with storage := 20000, storageValid := true }
    silence := Tab.gen fun k => silenceReset (plan.stations.get k)
    reaches := Tab.gen fun k => reachReset (plan.reaches.get k)
    gangs := Tab.gen fun c => { gangReset plan c with hold := false }
    armed := Tab.gen fun n => (plan.sched.get n).isPresent
    store := { active := plan, planPending := plan, run := none, retained :=
      { plan := plan, agrees := true }, writing := false } }

/-- The base state with one channel changed. -/
def withChan (g : Gate) (c : Channel) : State := base.setChan g c

/-- Channel `g` of the base state in another state. -/
def inState (g : Gate) (st : ChanState) : State := withChan g { base.chan g with state := st }

/-- The base state with channel 3 at 300 su and a target of 306, which is work. -/
def working : State := withChan 3 { base.chan 3 with governed := some 306 }

/-- The member of gang 0 in DWELL, its gang dwell with so many seconds to go. -/
def gangDwelling (n : Nat) : State :=
  (inState 1 (.dwell none)).setGang 0 { base.gang 0 with dwell := some { dir := .up, remaining := n, member := 1 } }

/-- A state with a request waiting in the inbox. -/
def asking (s : State) (p : List Byte) : State := { s with inbox := [p] }

/-- A request of issuer 3 with tag 7. -/
def req (kind : Byte) (args : List Byte) : List Byte := [3#8, kind, 0#8, 7#8] ++ args

/-- A line frame of a type the part does not read. -/
def frame : LineFrame := { dest := 9#8, typ := 0x30#8, payload := [1#8, 2#8] }

/-- The base state with queues of port F. -/
def sendingF (urgent routine : List LineFrame) (streak : Nat) : State :=
  { base with fieldReady := true, portF :=
    { PortF.reset with urgent := urgent, routine := routine, streak := streak } }

/-- The base state with queues of port D. -/
def sendingD (fwd : List LineFrame) (own : List OwnFrame) (last : UpQueue) : State :=
  { base with portD := { PortD.reset with fwd := fwd, own := own, lastFrom := last } }

/-- The base state with queues of port D behind a frame being sent. -/
def behindD (fwd : List LineFrame) (own : List OwnFrame) : State :=
  { base with portD := { PortD.reset with fwd := fwd, own := own, sending := some frame } }

/-- A frame of the part's own. -/
def ownFrame : OwnFrame := .reply { issuer := 3#8, kind := 12#8, tag := 7, status := .done, results := [] }

/-- The base state with a station record changed. -/
def withStation (k : StationId) (r : Station) : State := base.setStation k r

/-- The base state with a headwater record of station 0. -/
def withHead (level : Nat) (stale due : Bool) : State :=
  withStation 0 { base.station 0 with hw := { level := some level, age := 600, stale := stale, staleDue := due } }

/-- The base state with a silence record of station 0. -/
def silent (level : SilenceLevel) (timer : Option Nat) : State := base.setSilence 0 { level := level, timer := timer }

/-- The base state with parts of a minute owed. -/
def owing (outflow balance schedule : Bool) : State :=
  { base with minuteDue := { outflow := outflow, balance := if balance then allFin 6 else [], schedule := schedule } }

/-- The base state with a clock. -/
def atTime (year day hour minute second : Nat) : State :=
  { base with clock := { year := year, day := day, hour := hour, minute := minute, second := second } }

/-- The base state with a Plan Store of its own run, write and PENDING plan. -/
def stored (run : Option Nat) (writing : Bool) (p : Plan) : State :=
  { base with store := { base.store with run := run, writing := writing, planPending := p } }

/-- The command answers a next state with a property. -/
def gives (c : Instr) (s : State) (p : State → Bool) : Bool :=
  match exec c s with
  | .next t => p t
  | _ => false

/-- No waiter is fresh, and the trace of the command followed goes on. -/
def calm (s : State) : Bool :=
  s.portF.waitUrgent.fresh == [] && s.portF.waitRoutine.fresh == []
    && s.report.sampler.tagged.all fun t => s.traceGoesOn t.gate

/-- A calm state with no transmission due. -/
def resting (s : State) : Bool := calm s && !s.dueF && !s.dueD

theorem settled_of_calm {s : State} (h : calm s = true) : s.settled := by
  simp only [calm, Bool.and_eq_true, beq_iff_eq] at h
  rw [settled_iff]
  refine ⟨h.1.1, h.1.2, fun t ht => ?_⟩
  rw [ht] at h
  exact h.2

theorem ready_of_resting {s : State} (h : resting s = true) : s.ready := by
  simp only [resting, Bool.and_eq_true, Bool.not_eq_true'] at h
  exact ⟨settled_of_calm h.1.1, h.1.2, h.2⟩

theorem settled_all {l : List State} (h : l.all calm = true) : ∀ s ∈ l, s.settled := fun s hs =>
  settled_of_calm (List.all_eq_true.mp h s hs)

theorem quiet_all {l : List State} (h : (l.all fun s => resting s && !s.told) = true) : ∀ s ∈ l, s.quiet := fun s hs => by
  have h := List.all_eq_true.mp h s hs
  simp only [Bool.and_eq_true, Bool.not_eq_true'] at h
  exact ⟨ready_of_resting h.1, h.2⟩

/-- A state with one request waiting, the request, and its kind. -/
def ask (s : State) (p : List Byte) (r : Request) : State × List Byte × Request := (asking s p, p, r)

/-- The state is ready, and its request stands alone in the inbox, of its kind, with the right and room. -/
def Asks (x : State × List Byte × Request) : Prop := x.1.ready ∧ x.1.asks x.2.1 x.2.2

/-- What `Asks` comes to, as a check. -/
def askCheck (x : State × List Byte × Request) : Bool :=
  resting x.1 && x.1.inbox == [x.2.1] && x.1.ownRoom && x.1.active.manages (reqIssuer x.2.1).toNat
    && readRequest x.2.1 == x.2.2

theorem asks_all {l : List (State × List Byte × Request)} (h : l.all askCheck = true) : ∀ x ∈ l, Asks x := fun x hx => by
  have h := List.all_eq_true.mp h x hx
  simp only [askCheck, Bool.and_eq_true, beq_iff_eq] at h
  exact ⟨ready_of_resting h.1.1.1.1, h.1.1.1.2, h.1.1.2, h.1.2, h.2⟩

/-- An opening that is held is no greater than full stroke. -/
def fits (o : Option Nat) : Bool := o.all fun n => decide (n ≤ 1000)

theorem openingIn_of {o : Option Nat} (h : fits o = true) : openingIn o := by
  rintro n rfl
  simpa [fits] using h

/-! ### Well-formedness: each check refuses an ill-formed command -/

theorem test_wf_setpoint_refuses_57_bytes : (Instr.setpoint 0#8 (List.replicate 57 0#8)).wellFormed = false := by decide

theorem test_wf_setpoint_takes_56_bytes : (Instr.setpoint 0#8 (List.replicate 56 0#8)).wellFormed = true := by decide

theorem test_wf_keepalive_refuses_57_bytes : (Instr.keepalive 0#8 (List.replicate 57 0#8)).wellFormed = false := by decide

theorem test_wf_keepalive_takes_56_bytes : (Instr.keepalive 0#8 (List.replicate 56 0#8)).wellFormed = true := by decide

theorem test_wf_inflow_refuses_57_bytes : (Instr.inflow 0#8 (List.replicate 57 0#8)).wellFormed = false := by decide

theorem test_wf_inflow_takes_56_bytes : (Instr.inflow 0#8 (List.replicate 56 0#8)).wellFormed = true := by decide

theorem test_wf_mgmtReq_refuses_57_bytes : (Instr.mgmtReq 0#8 (List.replicate 57 0#8)).wellFormed = false := by decide

theorem test_wf_mgmtReq_takes_56_bytes : (Instr.mgmtReq 0#8 (List.replicate 56 0#8)).wellFormed = true := by decide

theorem test_wf_position_refuses_57_bytes : (Instr.position 0#8 (List.replicate 57 0#8)).wellFormed = false := by decide

theorem test_wf_position_takes_56_bytes : (Instr.position 0#8 (List.replicate 56 0#8)).wellFormed = true := by decide

theorem test_wf_gauge_refuses_57_bytes : (Instr.gauge 0#8 (List.replicate 57 0#8)).wellFormed = false := by decide

theorem test_wf_gauge_takes_56_bytes : (Instr.gauge 0#8 (List.replicate 56 0#8)).wellFormed = true := by decide

theorem test_wf_pass_refuses_57_bytes :
    (Instr.dispatchFramePass { frame with payload := List.replicate 57 0#8 }).wellFormed = false := by decide

theorem test_wf_pass_refuses_Setpoint :
    (Instr.dispatchFramePass { frame with typ := typSetpoint }).wellFormed = false := by decide

theorem test_wf_pass_refuses_Keepalive :
    (Instr.dispatchFramePass { frame with typ := typKeepalive }).wellFormed = false := by decide

theorem test_wf_pass_refuses_Inflow : (Instr.dispatchFramePass
  { frame with typ := typInflow }).wellFormed = false := by decide

theorem test_wf_pass_takes_other_types : (Instr.dispatchFramePass frame).wellFormed = true := by decide

theorem test_wf_forward_refuses_57_bytes :
    (Instr.fieldFrameForward { frame with payload := List.replicate 57 0#8 }).wellFormed = false := by decide

theorem test_wf_forward_refuses_Position :
    (Instr.fieldFrameForward { frame with typ := typPosition }).wellFormed = false := by decide

theorem test_wf_forward_refuses_Gauge : (Instr.fieldFrameForward
  { frame with typ := typGauge }).wellFormed = false := by decide

theorem test_wf_forward_takes_other_types : (Instr.fieldFrameForward frame).wellFormed = true := by decide

theorem test_wf_claim_refuses_a_judged_setpoint :
    (Instr.portFTxBegin (.frame
      { dest := 0#8, typ := typSetpoint, payload := [3#8, 47#8, 0#8, 0#8, 0#8, 0#8, 0#8] })).wellFormed
      = false := by decide

theorem test_wf_claim_takes_a_setpoint_for_gate_48 :
    (Instr.portFTxBegin (.frame
      { dest := 0#8, typ := typSetpoint, payload := [3#8, 48#8, 0#8, 0#8, 0#8, 0#8, 0#8] })).wellFormed
      = true := by decide

theorem test_wf_claim_refuses_Keepalive :
    (Instr.portFTxBegin (.frame { frame with typ := typKeepalive })).wellFormed = false := by decide

theorem test_wf_claim_refuses_57_bytes :
    (Instr.portFTxBegin (.frame { frame with payload := List.replicate 57 0#8 })).wellFormed = false := by decide

/-! ### Fixed values of the manual -/

theorem test_crc_of_the_nine_characters :
    crc16 [0x31#8, 0x32#8, 0x33#8, 0x34#8, 0x35#8, 0x36#8, 0x37#8, 0x38#8, 0x39#8] = 0x29B1#16 := by decide +kernel

theorem test_plan_valid : plan.valid = true := by decide

theorem test_empty_plan_valid : Plan.empty.valid = true := by decide

theorem test_no_word_spells_a_command : decodeTableWord 16 0xFFFF = none := by decide

/-- Surface A of section 2.8. -/
def surfaceA : SurfaceEntry :=
  { SurfaceEntry.absent with
    present := 1, openingCount := 4, headCount := 2, openings := Tab.gen fun i => [0, 250, 500, 1000].getD i.1 0,
    heads := Tab.gen fun j => [2000, 4000].getD j.1 0,
    nodes := Tab.gen fun j => Tab.gen fun i =>
      (if j.1 = 0 then [0, 300, 700, 1500] else if j.1 = 1 then [0, 420, 990, 2120] else []).getD i.1 0 }

/-- The station of section 2.10. -/
def stationA : StationEntry :=
  { StationEntry.absent with
    present := 1, pointCount := 4,
    points := Tab.gen fun i => [⟨3000, 10000000⟩, ⟨3500, 18000000⟩, ⟨4200, 34000000⟩, ⟨4600, 47000000⟩].getD i.1 ⟨0, 0⟩ }

theorem test_rating_column : columnAt surfaceA 3100 = [0, 366, 859, 1841] := by decide

theorem test_rating_discharge : discharge surfaceA 3100 640 = 1133 := by decide

theorem test_rating_inverses :
    upperInverse surfaceA 3100 1000 = 571 ∧ lowerInverse surfaceA 3100 1000 = (572, false) := by decide

theorem test_rating_inverse_edges :
    upperInverse surfaceA 3100 2000 = 1000 ∧ lowerInverse surfaceA 3100 2000 = (1000, true)
      ∧ upperInverse surfaceA 3100 (-1) = 0 := by decide

theorem test_rating_storage :
    storageOf stationA 4480 = 43100000 ∧ levelOf stationA 43099400 = 4479 ∧ storageOf stationA 3870 = 26457142
      ∧ levelOf stationA 26457142 = 3869 ∧ storageOf stationA 2800 = 10000000 := by decide

/-! ### One step of each command -/

theorem test_step_power_on :
    gives (.powerOnReset 255#8) base
      (fun t => decide (t.clock = Clock.powerOn ∧ t.node = none ∧ (t.chan 3).state = .wait
        ∧ t.portD.own.length = 1)) = true := by decide

theorem test_step_external_reset :
    gives (.externalReset 7#8) (atTime 4 366 1 2 3)
      (fun t => decide (t.clock.day = 366 ∧ t.node = some 7#8 ∧ (t.chan 4).state = .unbound)) = true := by decide

theorem test_step_field_ready :
    gives .fieldReadyAsserted base
      (fun t => decide (t.fieldReady = true)) = true := by decide

theorem test_step_field_not_ready :
    gives .fieldReadyDeasserted (sendingF [frame, frame] [] 3)
      (fun t => decide (t.fieldReady = false ∧ t.portF.urgent = [frame]
        ∧ t.portF.sending = some frame)) = true := by decide

theorem test_step_tick_carries :
    gives .secondTick (atTime 23 365 23 59 59)
      (fun t => decide (t.clock = { year := 24, day := 1, hour := 0, minute := 0, second := 0 }
        ∧ t.minuteDue = MinuteDue.all)) = true := by decide +kernel

/-- Of two positions left over at a tick, the first one's notice is on the line before the second one's enters UP_OWN. -/
theorem test_step_tick_begins_between_expiries :
    gives .secondTick ((withChan 0 { base.chan 0 with staleDue := true }).setChan 3 { base.chan 3 with staleDue := true })
      (fun t => decide (t.portD.sending.isSome = true ∧ t.portD.own.length = 1 ∧ (t.chan 1).age = 1)) = true := by
  decide +kernel

theorem test_step_minute :
    gives (.modelMinute .whole) (owing true true true)
      (fun t => decide ((t.station 0).qOut = 1200 ∧ (t.station 0).storage = 12800
        ∧ t.minuteDue = MinuteDue.none)) = true := by decide +kernel

theorem test_step_stale :
    gives (.positionStale 3) (withChan 3 { base.chan 3 with staleDue := true })
      (fun t => decide ((t.chan 3).state = .wait ∧ t.portD.own.length = 1)) = true := by decide

theorem test_step_stall :
    gives (.stepTimeout 3) (inState 3 (.step 350 0))
      (fun t => decide ((t.chan 3).state = .hold .stall)) = true := by decide

theorem test_step_dwell :
    gives (.dwellExpiry 3) (inState 3 (.dwell (some 0)))
      (fun t => decide ((t.chan 3).state = .idle)) = true := by decide

theorem test_step_gang_dwell :
    gives (.gangDwellExpiry 0) (gangDwelling 0)
      (fun t => decide ((t.chan 1).state = .idle ∧ (t.gang 0).dwell = none)) = true := by decide

theorem test_step_gauge_stale :
    gives (.gaugeStale 0 .tailwater) (withStation 0 { base.station 0 with tw :=
      { level := some 5, age := 600, stale := false, staleDue := true } })
      (fun t => decide ((t.station 0).tw.stale = true)) = true := by decide

theorem test_step_silence :
    gives (.firstSilenceExpiry 0) (silent .l0 (some 0))
      (fun t => decide ((t.chan 3).state = .hold .silence ∧ (t.silenceOf 0).level = .l1)) = true := by decide

theorem test_step_fallback :
    gives (.secondSilenceExpiry 0) (silent .l1 (some 0))
      (fun t => decide ((t.chan 3).source = .fallback ∧ (t.chan 3).governed = some 200
        ∧ (t.silenceOf 0).level = .l2)) = true := by decide

theorem test_step_write_complete :
    gives .retainedWriteComplete (stored none true plan)
      (fun t => decide (t.store.writing = false)) = true := by decide

theorem test_step_damaged :
    gives (.damagedFrame .d [] true) base
      (fun t => decide (t.portD.counts.damaged = 1)) = true := by decide

theorem test_step_setpoint :
    gives (.setpoint 0#8 [3#8, 3#8, 1#8, 200#8, 0#8, 0#8, 9#8]) base
      (fun t => decide ((t.chan 3).governed = some 456 ∧ (t.chan 3).state = .step 350 10
        ∧ t.portF.routine = [incrementFrame 3 350 1])) = true := by decide

theorem test_step_keepalive :
    gives (.keepalive 0#8 [3#8, 0#8]) (silent .l0 (some 1))
      (fun t => decide ((t.silenceOf 0).timer = some 20)) = true := by decide

theorem test_step_inflow :
    gives (.inflow 0#8 [3#8, 0#8, 1#8, 0#8, 2#8]) base
      (fun t => decide ((t.station 0).qLocal = 65538)) = true := by decide

theorem test_step_mgmt_req :
    gives (.mgmtReq 0#8 (req 15#8 [])) base
      (fun t => decide (t.inbox = [] ∧ t.portD.own = [replyTo (req 15#8 []) .refusedState []])) = true := by decide

/-- A Responder that was told of room empties a place of the full inbox before the next request arrives. -/
theorem test_step_mgmt_req_behind_a_told_responder :
    gives (.mgmtReq 0#8 (req 15#8 []))
      { behindD [] (List.replicate 31 ownFrame) with inbox := List.replicate 4 (req 12#8 []), told := true }
      (fun t => decide (t.inbox = List.replicate 3 (req 12#8 []) ++ [req 15#8 []] ∧ t.portD.counts.dropped = 0
        ∧ t.portD.own.length = 32)) = true := by decide

/-- A RESTART that waits is taken as its place is freed, before the next request arrives, which so is not lost with it. -/
theorem test_step_mgmt_req_behind_a_waiting_restart :
    gives (.mgmtReq 0#8 (req 15#8 []))
      { behindD [] (List.replicate 31 ownFrame) with inbox := [req 17#8 []], told := true }
      (fun t => decide (t.inbox = [] ∧ t.portD.sending.isSome = true ∧ t.told = false
        ∧ t.portD.own = [replyTo (req 15#8 []) .refusedState []])) = true := by decide +kernel

theorem test_step_pass :
    gives (.dispatchFramePass frame) base
      (fun t => decide (t.portF.routine = [frame])) = true := by decide

theorem test_step_position :
    gives (.position 0#8 [3#8, 1#8, 0#8, 0#8]) base
      (fun t => decide ((t.chan 3).measured = some 256 ∧ t.portD.fwd.length = 1)) = true := by decide

theorem test_step_position_trip :
    gives (.position 0#8 [0#8, 0#8, 0#8, 4#8]) base
      (fun t => decide ((t.chan 0).state = .fault .trip ∧ (t.chan 1).governed = some 600
        ∧ (t.chan 1).source = .compensation)) = true := by decide

theorem test_step_gauge :
    gives (.gauge 0#8 [0#8, 13#8, 172#8, 0#8]) (withHead 3499 false false)
      (fun t => decide ((t.station 0).storage = 20000 ∧ (t.station 0).stage = .watch
        ∧ (t.station 0).mark0.unread = true)) = true := by decide

theorem test_step_forward :
    gives (.fieldFrameForward frame) base
      (fun t => decide (t.portD.fwd = [frame])) = true := by decide

theorem test_step_increment :
    gives (.incrementStart 3) (withChan 3 { base.chan 3 with governed := some 400 })
      (fun t => decide ((t.chan 3).state = .step 350 10)) = true := by decide

theorem test_step_port_f_begin :
    gives (.portFTxBegin .channels) (sendingF [frame] [frame] 8)
      (fun t => decide (t.portF.streak = 0 ∧ t.portF.routine = [] ∧ t.portF.sending = some frame)) = true := by decide

/-- ROUTINE is full, channel 3 waits for it, and the transmitter is free. -/
def routineWaiting : State :=
  { working with fieldReady := true, portF := { PortF.reset with routine := List.replicate 64 frame,
                                                                 waitRoutine := { settled := [3], fresh := [] } } }

theorem test_step_port_f_claimed :
    gives (.portFTxBegin (.frame { frame with dest := 8#8 })) routineWaiting
      (fun t => decide (t.portF.routine = List.replicate 63 frame ++ [{ frame with dest := 8#8 }]
        ∧ (t.chan 3).state = .idle ∧ t.portF.waitRoutine.settled = [3])) = true := by decide

theorem test_step_port_f_end :
    gives .portFTxEnd (base.setPortF { PortF.reset with sending := some frame })
      (fun t => decide (t.portF.sending = none)) = true := by decide

theorem test_step_port_d_begin :
    gives (.portDTxBegin .responder) (sendingD [frame] [ownFrame] .own)
      (fun t => decide (t.portD.fwd = [] ∧ t.portD.lastFrom = .fwd)) = true := by decide

theorem test_step_port_d_next_event :
    gives (.portDTxBegin .nextEvent) (asking (sendingD [] (List.replicate 32 ownFrame) .fwd) (req 15#8 []))
      (fun t => decide (t.told = true ∧ t.portD.own.length = 31 ∧ t.inbox = [req 15#8 []])) = true := by decide

/-- UP_OWN has one place, and the Responder was told of it, when the step timeout of channel 3 comes. -/
def toldStall : State :=
  { asking (inState 3 (.step 350 0)) (req 15#8 []) with
    told := true, portD := { PortD.reset with own := List.replicate 31 ownFrame, sending := some frame } }

/-- The notice of the next event takes the place before the Responder that was told of it. -/
theorem test_step_told_behind_a_notice :
    gives (.stepTimeout 3) toldStall
      (fun t => decide (t.told = false ∧ t.inbox = [req 15#8 []] ∧ t.portD.own.length = 32)) = true := by decide

theorem test_step_port_d_end :
    gives .portDTxEnd (base.setPortD { PortD.reset with sending := some frame })
      (fun t => decide (t.portD.sending = none)) = true := by decide

theorem test_step_bad_kind :
    gives .mgmtBadKind (asking (base) (req 99#8 []))
      (fun t => decide (t.inbox = [] ∧ t.portD.own = [replyTo (req 99#8 []) .badArgument []])) = true := by decide

theorem test_step_read_entry :
    gives .readEntry (asking (base) (req 1#8 [0#8, 2#8, 0#8, 0#8]))
      (fun t => decide (t.inbox = []
        ∧ t.portD.own = [replyTo
          (req 1#8 [0#8, 2#8, 0#8, 0#8]) .done [2#8, 0#8, 0#8, 1#8, 0#8, 2#8]])) = true := by decide

theorem test_step_open_load :
    gives .openLoad (asking (base) (req 2#8 [4#8, 0#8]))
      (fun t => decide (t.inbox = [] ∧ t.portD.own = [replyTo (req 2#8 [4#8, 0#8]) .done []]
        ∧ t.store.run = some 1024)) = true := by decide

theorem test_step_write_entry :
    gives .writeEntry (asking (stored (some 1) false plan) (req 3#8 [2#8, 0#8, 0#8, 1#8, 0#8, 5#8]))
      (fun t => decide (t.inbox = []
        ∧ t.portD.own = [replyTo (req 3#8 [2#8, 0#8, 0#8, 1#8, 0#8, 5#8]) .done [0#8, 0#8]] ∧ t.store.run = none
        ∧ (t.store.planPending.reaches.get 0).tau = 5)) = true := by decide

theorem test_step_abandon :
    gives .abandon (asking (stored (some 5) false plan) (req 4#8 [1#8]))
      (fun t => decide (t.inbox = [] ∧ t.portD.own = [replyTo (req 4#8 [1#8]) .done [0#8, 5#8]]
        ∧ t.store.run = none)) = true := by decide

theorem test_step_copy :
    gives .copy (asking (stored none false Plan.empty) (req 4#8 [2#8]))
      (fun t => decide (t.inbox = [] ∧ t.portD.own = [replyTo (req 4#8 [2#8]) .done [0#8, 0#8]]
        ∧ t.store.planPending.number = 41)) = true := by decide

theorem test_step_check :
    gives .check (asking (base) (req 4#8 [4#8]))
      (fun t => decide (t.inbox = [] ∧ t.portD.own = [replyTo (req 4#8 [4#8]) .done [0#8, 41#8]])) = true := by decide

theorem test_step_commit :
    gives .commit (asking (stored none false Plan.empty) (req 4#8 [8#8]))
      (fun t => decide (t.store.writing = true ∧ (t.chan 3).state = .unbound
        ∧ t.portD.own.length = 2)) = true := by decide +kernel

/-- Member 1 holds the turn in IDLE, and the spread of the PENDING plan would leave it no step (R92). -/
theorem test_step_commit_keeps_the_turn :
    gives .commit
      (asking ((((withChan 1 { base.chan 1 with governed := some 400 }).setChan 2 { base.chan 2 with measured := some 240 }).setGang 0
        { base.gang 0 with holder := some 1 }).setStore
          { base.store with
            planPending := { plan with gangs := plan.gangs.set 0 { plan.gangs.get 0 with spread := 50 } } }) (req 4#8 [8#8]))
      (fun t => decide ((t.gang 0).holder = some 1 ∧ (t.chan 1).state = .idle ∧ t.cappedStep 1 = none
        ∧ t.store.writing = true)) = true := by decide +kernel

theorem test_step_set_clock :
    gives .setClock (asking base (req 5#8 [4#8, 1#8, 110#8, 23#8, 59#8, 58#8]))
      (fun t => decide (t.clock =
        { year := 4, day := 366, hour := 23, minute := 59, second := 58 })) = true := by decide

/-- The work of a minute is owed, UP_OWN has one place, and a SET_CLOCK waits. -/
def clockBehindMinute : State :=
  { asking (owing true true true) (req 5#8 [4#8, 1#8, 110#8, 23#8, 59#8, 59#8]) with
    portD := { PortD.reset with own := List.replicate 31 ownFrame, sending := some frame } }

/-- The minute's notice takes the place, and the SET_CLOCK waits. -/
theorem test_step_set_clock_behind_the_minute :
    gives .setClock clockBehindMinute
      (fun t => decide (t.minuteDue = MinuteDue.none ∧ t.clock = base.clock ∧ t.inbox.length = 1
        ∧ t.portD.own.length = 32)) = true := by decide +kernel

/-- A Responder that was told of room waits behind the notice that an event of the minute hands on. -/
theorem test_step_minute_before_a_told_responder :
    gives (.modelMinute .whole) { clockBehindMinute with told := true }
      (fun t => decide (t.minuteDue = MinuteDue.none ∧ t.clock = base.clock ∧ t.inbox.length = 1 ∧ t.told = false
        ∧ t.noticeCount = 1 ∧ t.portD.own.length = 32)) = true := by decide +kernel

/-- The schedule's part of a minute that matches no entry, with a SET_CLOCK to the time of entry 0 that the Responder, told of
room, has yet to take. -/
def toldClock : State :=
  { asking (atTime 0 1 0 1 0) (req 5#8 [0#8, 0#8, 1#8, 0#8, 0#8, 0#8]) with
    told := true, minuteDue := { MinuteDue.none with schedule := true }
    portD := { PortD.reset with own := List.replicate 31 ownFrame, sending := some frame } }

/-- The SET_CLOCK takes the owed minute before it sets the clock, and the minute is not matched again on the time it set. -/
theorem test_step_minute_matched_once :
    scheduleMatches (toldClock.active.sched.get 0) (readClock [0#8, 0#8, 1#8, 0#8, 0#8, 0#8]) = true
    ∧ gives (.modelMinute .schedule) toldClock
      (fun t => decide (t.minuteDue = MinuteDue.none ∧ t.clock = readClock [0#8, 0#8, 1#8, 0#8, 0#8, 0#8] ∧ t.inbox = []
        ∧ t.armed = toldClock.armed ∧ t.chans = toldClock.chans)) = true := by decide +kernel

theorem test_step_resume_station :
    gives .resumeStation (asking (base) (req 6#8 [6#8]))
      (fun t => decide (t.inbox = [] ∧ t.portD.own = [replyTo (req 6#8 [6#8]) .badArgument []])) = true := by decide

theorem test_step_resume_gate :
    gives .resumeGate (asking (inState 3 (.hold .stall)) (req 7#8 [3#8]))
      (fun t => decide (t.inbox = [] ∧ t.portD.own = [replyTo (req 7#8 [3#8]) .done []]
        ∧ (t.chan 3).state = .idle)) = true := by decide

theorem test_step_force_gate :
    gives .forceGate (asking (inState 3 (.hold .stall)) (req 8#8 [3#8, 4#8, 0#8]))
      (fun t => decide (t.inbox = [] ∧ t.portD.own = [replyTo (req 8#8 [3#8, 4#8, 0#8]) .done []]
        ∧ (t.chan 3).governed = some 1000 ∧ (t.chan 3).source = .force)) = true := by decide

theorem test_step_member_out :
    gives .setMemberOut (asking (base) (req 9#8 [1#8, 1#8]))
      (fun t => decide (t.inbox = [] ∧ t.portD.own = [replyTo (req 9#8 [1#8, 1#8]) .done []]
        ∧ (t.gang 0).out = [1])) = true := by decide

theorem test_step_reseed :
    gives .reseedReach (asking base (req 10#8 [0#8]))
      (fun t => decide ((t.reach 0).unseeded = false
        ∧ (t.reach 0).line = [{ flow := 0, minutes := 2 }])) = true := by decide

theorem test_step_read_marks :
    gives .readMarks (asking (withStation 0 { base.station 0 with mark0 :=
      { capture := none, unread := true, overwrite := true } }) (req 11#8 [0#8]))
      (fun t => decide ((t.station 0).mark0 = MarkRec.reset)) = true := by decide

theorem test_step_snapshot :
    gives .snapshot (asking base (req 12#8 []))
      (fun t => decide (t.report.snapshot.isSome = true)) = true := by decide

theorem test_step_read_snapshot :
    gives .readSnapshot (asking (base) (req 13#8 [112#8]))
      (fun t => decide (t.inbox = []
        ∧ t.portD.own = [replyTo (req 13#8 [112#8]) .refusedState []])) = true := by decide

theorem test_step_set_sampler :
    gives .setSampler (asking (base) (req 14#8 [0#8, 3#8]))
      (fun t => decide (t.inbox = [] ∧ t.portD.own = [replyTo (req 14#8 [0#8, 3#8]) .done []]
        ∧ t.report.sampler.countdown = 3)) = true := by decide

theorem test_step_read_trace :
    gives .readTrace (asking (base) (req 15#8 []))
      (fun t => decide (t.inbox = [] ∧ t.portD.own = [replyTo (req 15#8 []) .refusedState []])) = true := by decide

theorem test_step_read_counts :
    gives .readCounts (asking (base) (req 16#8 [1#8]))
      (fun t => decide (t.inbox = []
        ∧ t.portD.own = [replyTo (req 16#8 [1#8]) .done (List.replicate 20 0#8)])) = true := by decide

theorem test_step_restart :
    gives .restart (asking base (req 17#8 []))
      (fun t => decide (t.portD.own.length = 1 ∧ (t.chan 3).state = .wait)) = true := by decide

/-! ### States and operands that meet the hypotheses of the statements, clause by clause -/

theorem witness_StepTakesTheFrontCommand :
    (base.withQueue [.secondTick]).pending = .secondTick :: [] ∧ base.pending = [] := by decide

theorem witness_EveryCommandCompletes :
    (Instr.secondTick ≠ .fieldReadyAsserted ∧ Instr.secondTick ≠ .fieldReadyDeasserted)
      ∧ (∀ x, Instr.secondTick ≠ .powerOnReset x ∧ Instr.secondTick ≠ .externalReset x)
      ∧ (∀ x, Instr.secondTick ≠ .portFTxBegin x) ∧ ∀ x, Instr.secondTick ≠ .portDTxBegin x :=
  ⟨⟨nofun, nofun⟩, fun _ => ⟨nofun, nofun⟩, nofun, nofun⟩

theorem witness_RestartResetsThePart :
    (∀ x ∈ [ask base (req 17#8 []) .restart, ask (stored none true plan) (req 17#8 []) .restart,
        ask base (req 17#8 [0#8]) .restart], Asks x)
    ∧ reqArgs (req 17#8 []) = [] ∧ base.store.writing = false ∧ (stored none true plan).store.writing = true
      ∧ reqArgs (req 17#8 [0#8]) ≠ [] :=
  ⟨asks_all (by decide), by decide⟩

theorem witness_PinsTransmittersAndRetainedWrite :
    (∀ s ∈ [base, stored none true plan], s.quiet)
    ∧ base.store.writing = false ∧ (stored none true plan).store.writing = true :=
  ⟨quiet_all (by decide), by decide⟩

theorem witness_PortFChoosesByTheUrgentStreak :
    (∀ s ∈ [base], s.quiet)
    ∧ (∀ x ∈ [ask base (req 17#8 []) .restart], Asks x)
    ∧ (sendingF [frame] [] 8).told = false
      ∧ (sendingF [frame] [] 8).fieldReady = true ∧ (sendingF [frame] [] 8).portF.sending = none
      ∧ (sendingF [frame] [] 8).portF.urgent = frame :: [] ∧ (sendingF [frame] [] 8).portF.routine = []
      ∧ (sendingF [frame] [frame] 7).fieldReady = true ∧ (sendingF [frame] [frame] 7).portF.urgent = frame :: []
      ∧ (sendingF [frame] [frame] 7).portF.routine ≠ [] ∧ (sendingF [frame] [frame] 7).portF.streak < 8
      ∧ (sendingF [frame] [frame] 8).portF.urgent ≠ [] ∧ (sendingF [frame] [frame] 8).portF.routine = frame :: []
      ∧ (sendingF [frame] [frame] 8).portF.streak = 8 ∧ (sendingF [] [frame] 0).portF.urgent = []
      ∧ (sendingF [] [frame] 0).portF.routine = frame :: [] ∧ reqArgs (req 17#8 []) = []
      ∧ (asking base (req 17#8 [])).store.writing = false :=
  ⟨quiet_all (by decide), asks_all (by decide), by decide⟩

/-- URGENT is full, and the compensation increment of channel 3 waits for it. -/
def urgentFull : State :=
  ({ sendingF (List.replicate 16 frame) [] 7 with
      chans := base.chans.set 3 { base.chan 3 with governed := some 400, source := .compensation } }).setPortF
    { PortF.reset with urgent := List.replicate 16 frame, streak := 7, waitUrgent := { settled := [3], fresh := [] } }

theorem witness_PortFBeginsOneFrame :
    (∀ s ∈ [base, base.setPortF { PortF.reset with sending := some frame }, sendingF [] [] 0, sendingF [frame] [] 7,
        sendingF [] [frame] 8, urgentFull, routineWaiting], s.settled)
    ∧ (base.told = false ∧ base.dueF = false ∧ base.fieldReady = false)
      ∧ (base.setPortF { PortF.reset with sending := some frame }).dueF = false ∧ (sendingF [] [] 0).dueF = false
      ∧ (sendingF [frame] [] 7).dueF = true ∧ (sendingF [frame] [] 7).portF.urgent = frame :: []
      ∧ (sendingF [frame] [] 7).portF.streak < 8 ∧ (sendingF [frame] [] 7).portF.waitUrgent.settled = []
      ∧ (sendingF [] [frame] 8).fieldReady = true ∧ (sendingF [] [frame] 8).portF.sending = none
      ∧ (sendingF [] [frame] 8).portF.routine = frame :: [] ∧ (sendingF [] [frame] 8).portF.urgent = []
      ∧ (sendingF [] [frame] 8).portF.waitRoutine.settled = []
      ∧ urgentFull.told = false ∧ urgentFull.fieldReady = true ∧ urgentFull.portF.sending = none
      ∧ urgentFull.portF.streak < 8 ∧ urgentFull.portF.urgent = frame :: List.replicate 15 frame
      ∧ urgentFull.portF.urgent.length = 16 ∧ urgentFull.portF.waitUrgent.settled = 3 :: []
      ∧ urgentFull.workTarget 3 = some 350 ∧ urgentFull.mayStart 3 = true ∧ urgentFull.queueFor 3 = .urgent
      ∧ routineWaiting.told = false ∧ routineWaiting.fieldReady = true ∧ routineWaiting.portF.sending = none
      ∧ routineWaiting.portF.urgent = [] ∧ routineWaiting.portF.routine = frame :: List.replicate 63 frame
      ∧ routineWaiting.portF.routine.length = 64 ∧ routineWaiting.portF.waitRoutine.settled = 3 :: []
      ∧ (∀ g ∈ routineWaiting.portF.waitRoutine.settled, routineWaiting.queueFor g = .routine)
      ∧ routineWaiting.goesToField frame = true ∧ routineWaiting.workTarget 3 = some 306
      ∧ routineWaiting.mayStart 3 = true ∧ routineWaiting.queueFor 3 = .routine :=
  ⟨settled_all (by decide), by decide⟩

/-- UP_OWN is full and a request waits. -/
def ownFull : State := asking (sendingD [] (List.replicate 32 ownFrame) .own) (req 12#8 [])

/-- Nothing is due, and the Responder, told of room, waits for the next event. -/
def toldState : State := { asking base (req 12#8 []) with told := true }

theorem witness_PortDAlternates :
    (∀ s ∈ [base.setPortD { PortD.reset with sending := some frame }, base, sendingD [frame] [] .fwd,
        sendingD [frame] [ownFrame] .own, sendingD [] [ownFrame] .own, sendingD [frame] [ownFrame] .fwd, ownFull,
        toldState, toldStall, toldClock, { clockBehindMinute with told := true }], s.settled)
    ∧ (∀ r : Request, Instr.fieldReadyAsserted ≠ r.command ∧ Instr.stepTimeout 3 ≠ r.command)
    ∧ (base.setPortD { PortD.reset with sending := some frame }).dueD = false ∧ base.dueD = false
      ∧ (sendingD [frame] [] .fwd).dueD = true ∧ (sendingD [frame] [] .fwd).portD.sending = none
      ∧ (sendingD [frame] [] .fwd).portD.fwd = frame :: [] ∧ (sendingD [frame] [] .fwd).portD.own = []
      ∧ (sendingD [frame] [ownFrame] .own).portD.fwd = frame :: []
      ∧ (sendingD [frame] [ownFrame] .own).portD.lastFrom = .own
      ∧ (sendingD [] [ownFrame] .own).told = false ∧ (sendingD [] [ownFrame] .own).portD.own = ownFrame :: []
      ∧ (sendingD [] [ownFrame] .own).portD.fwd = [] ∧ (sendingD [] [ownFrame] .own).inbox = []
      ∧ (sendingD [frame] [ownFrame] .fwd).portD.own = ownFrame :: []
      ∧ (sendingD [frame] [ownFrame] .fwd).portD.lastFrom = .fwd
      ∧ ownFull.portD.sending = none ∧ ownFull.told = false ∧ ownFull.portD.fwd = []
      ∧ ownFull.portD.own = ownFrame :: List.replicate 31 ownFrame ∧ ownFull.portD.own.length = 32
      ∧ ownFull.portD.reserved = 0 ∧ ownFull.inbox = req 12#8 [] :: [] ∧ readRequest (req 12#8 []) ≠ .restart
      ∧ readRequest (req 12#8 []) ≠ .setClock
      ∧ toldState.dueF = false ∧ toldState.dueD = false ∧ toldState.told = true
      ∧ toldStall.dueF = false ∧ toldStall.dueD = false ∧ toldStall.told = true
      ∧ gives .fieldReadyAsserted { toldState with told := false }
          (fun t => decide (t.noticeCount ≤ toldState.noticeCount)) = true
      ∧ gives (.stepTimeout 3) { toldStall with told := false }
          (fun t => decide (toldStall.noticeCount < t.noticeCount)) = true
      ∧ toldClock.dueF = false ∧ toldClock.dueD = false ∧ toldClock.told = true ∧ toldClock.portD.sending.isSome = true
      ∧ (.schedule ∈ minuteEvents .schedule ∧ toldClock.isDue .schedule = true)
      ∧ gives (.modelMinute .schedule) { toldClock with told := false, inbox := [] }
          (fun t => decide (t.noticeCount ≤ toldClock.noticeCount)) = true
      ∧ clockBehindMinute.dueF = false ∧ clockBehindMinute.dueD = false
      ∧ (.schedule ∈ minuteEvents .whole ∧ clockBehindMinute.isDue .schedule = true)
      ∧ clockBehindMinute.portD.sending.isSome = true ∧ (∀ p ∈ clockBehindMinute.inbox, readRequest p ≠ .restart)
      ∧ gives (.modelMinute .whole) { clockBehindMinute with told := false, inbox := [] }
          (fun t => decide (clockBehindMinute.noticeCount < t.noticeCount)) = true :=
  ⟨settled_all (by decide), fun r => by cases r <;> exact ⟨nofun, nofun⟩, by decide +kernel⟩

theorem witness_DamagedFramesAreOnlyCounted :
    (∀ s ∈ [base], s.quiet)
    ∧ frameDamaged (List.replicate 62 0#8) true = true ∧ frameDamaged (List.replicate 4 0#8) true = true
      ∧ frameDamaged (frame.bytes.dropLast ++ [0#8]) true = true ∧ frameDamaged frame.bytes true = false
      ∧ (LineFrame.payload { frame with payload := List.replicate 56 0#8 }).length ≤ 56 :=
  ⟨quiet_all (by decide), by decide +kernel⟩

theorem witness_FramesPassUnchanged :
    (∀ s ∈ [base, base.setPortF { PortF.reset with routine := List.replicate 63 frame },
        base.setPortF { PortF.reset with routine := List.replicate 64 frame },
        behindD (List.replicate 63 frame) [], behindD (List.replicate 64 frame) []], s.quiet)
    ∧ frame.payload.length ≤ 56 ∧ frame.typ ≠ typSetpoint ∧ frame.typ ≠ typKeepalive ∧ frame.typ ≠ typInflow
      ∧ frame.typ ≠ typMgmtReq ∧ frame.typ ≠ typPosition ∧ frame.typ ≠ typGauge
      ∧ ({ frame with typ := typMgmtReq } : LineFrame).typ = typMgmtReq
      ∧ base.node ≠ some ({ frame with typ := typMgmtReq } : LineFrame).dest
      ∧ (base.setPortF { PortF.reset with routine := List.replicate 63 frame }).portF.routine.length < 64
      ∧ 64 ≤ (base.setPortF { PortF.reset with routine := List.replicate 64 frame }).portF.routine.length
      ∧ (behindD (List.replicate 63 frame) []).portD.fwd.length < 64
      ∧ 64 ≤ (behindD (List.replicate 64 frame) []).portD.fwd.length :=
  ⟨quiet_all (by decide), by decide⟩

/-- A SETPOINT of 456 su with tag 9. -/
def setpointOf (issuer gate flags : Byte) : List Byte := [issuer, gate, 1#8, 200#8, flags, 0#8, 9#8]

theorem witness_RejectedFramesAreOnlyCounted :
    (∀ s ∈ [base, inState 3 .wait], s.quiet)
    ∧ (setpointOf 64#8 3#8 0#8).length = 7 ∧ (readSetpoint (setpointOf 64#8 3#8 0#8)).gate = (3 : Gate).1
      ∧ (readSetpoint (setpointOf 64#8 3#8 0#8)).issuer > 63
      ∧ (readSetpoint (setpointOf 4#8 47#8 0#8)).gate = (47 : Gate).1
      ∧ base.active.authFor (readSetpoint (setpointOf 4#8 47#8 0#8)).issuer = none
      ∧ (readSetpoint (setpointOf 63#8 0#8 0#8)).issuer ≤ 63
      ∧ base.active.authFor (readSetpoint (setpointOf 63#8 0#8 0#8)).issuer = some (plan.auth.get 2)
      ∧ (plan.auth.get 2).command = false
      ∧ base.active.authFor (readSetpoint (setpointOf 5#8 16#8 1#8)).issuer = some (plan.auth.get 1)
      ∧ (readSetpoint (setpointOf 5#8 16#8 1#8)).override = true ∧ (plan.auth.get 1).command = true
      ∧ (plan.auth.get 1).override = false ∧ (plan.auth.get 1).inWindow (3 : Gate).1 = false
      ∧ (plan.auth.get 1).inWindow (16 : Gate).1 = true ∧ base.active.bound 16 = false
      ∧ (plan.auth.get 0).command = true ∧ (plan.auth.get 0).override = true
      ∧ (plan.auth.get 0).inWindow (3 : Gate).1 = true ∧ base.active.bound 3 = true
      ∧ ((inState 3 .wait).chan 3).state.takes = false ∧ [64#8, 0#8].length = 2 ∧ byteAt [64#8, 0#8] 0 > 63
      ∧ base.active.authFor (byteAt [4#8, 0#8] 0) = none
      ∧ base.active.authFor (byteAt [63#8, 0#8] 0) = some (plan.auth.get 2) ∧ [3#8, 2#8, 0#8, 0#8, 1#8].length = 5
      ∧ base.active.authFor (byteAt [3#8, 2#8, 0#8, 0#8, 1#8] 0) = some (plan.auth.get 0)
      ∧ (∀ k : StationId, byteAt [3#8, 2#8, 0#8, 0#8, 1#8] 1 = k.1 → (base.stationEntry k).isPresent = false)
      ∧ (∀ k : StationId, byteAt [3#8, 6#8] 1 = k.1 → (base.stationEntry k).isPresent = false) :=
  ⟨quiet_all (by decide), by decide⟩

theorem witness_IssuerWindowComparesSixDigits :
    (plan.auth.get 0).mask = 0 ∧ ({ plan.auth.get 0 with base := 63, mask := 63 } : AuthEntry).mask = 63
      ∧ ({ plan.auth.get 0 with base := 63, mask := 63 } : AuthEntry).base ≤ 63 := by decide

theorem witness_HighGatesPassAndMalformedFramesDrop :
    (∀ s ∈ [base, base.setPortF { PortF.reset with routine := List.replicate 64 frame }], s.quiet)
    ∧ (setpointOf 3#8 48#8 0#8).length = 7 ∧ 48 ≤ byteAt (setpointOf 3#8 48#8 0#8) 1
      ∧ byteAt (setpointOf 3#8 48#8 0#8) 1 ≤ 63 ∧ 48 ≤ byteAt (setpointOf 3#8 63#8 0#8) 1
      ∧ byteAt (setpointOf 3#8 63#8 0#8) 1 ≤ 63 ∧ base.portF.routine.length < 64
      ∧ 64 ≤ (base.setPortF { PortF.reset with routine := List.replicate 64 frame }).portF.routine.length
      ∧ 63 < byteAt (setpointOf 3#8 64#8 0#8) 1 ∧ [3#8].length ≠ 7 ∧ [3#8].length ≠ 2 ∧ [3#8].length ≠ 5
      ∧ [3#8].length ≤ 56 ∧ 56 < (List.replicate 57 (0#8 : Byte)).length :=
  ⟨quiet_all (by decide), by decide⟩

theorem witness_InflowSetsTheLocalInflow :
    (∀ s ∈ [base], s.quiet)
    ∧ [3#8, 0#8, 1#8, 0#8, 2#8].length = 5 ∧ byteAt [3#8, 0#8, 1#8, 0#8, 2#8] 0 ≤ 63
      ∧ base.active.authFor (byteAt [3#8, 0#8, 1#8, 0#8, 2#8] 0) = some (plan.auth.get 0)
      ∧ (plan.auth.get 0).command = true ∧ byteAt [3#8, 0#8, 1#8, 0#8, 2#8] 1 = (0 : StationId).1
      ∧ (base.stationEntry 0).isPresent = true :=
  ⟨quiet_all (by decide), by decide⟩

theorem witness_KeepaliveActsByTheSilenceLevel :
    (∀ s ∈ [base, silent .l2 none, silent .l1 (some 1)], s.quiet)
    ∧ [3#8, 0#8].length = 2 ∧ byteAt [3#8, 0#8] 0 ≤ 63
      ∧ base.active.authFor (byteAt [3#8, 0#8] 0) = some (plan.auth.get 0) ∧ (plan.auth.get 0).command = true
      ∧ byteAt [3#8, 0#8] 1 = (0 : StationId).1 ∧ (base.stationEntry 0).isPresent = true
      ∧ (base.silenceOf 0).level = .l0 ∧ 0 < (base.stationEntry 0).silenceCount
      ∧ byteAt [3#8, 1#8] 1 = (1 : StationId).1 ∧ (base.stationEntry 1).isPresent = true
      ∧ (base.silenceOf 1).level = .l0 ∧ (base.stationEntry 1).silenceCount = 0
      ∧ ((silent .l2 none).silenceOf 0).level = .l2 ∧ ((silent .l1 (some 1)).silenceOf 0).level = .l1
      ∧ 0 < ((silent .l1 (some 1)).stationEntry 0).silenceCount :=
  ⟨quiet_all (by decide), by decide⟩

/-- A trace of channel `g`. -/
def traceOf (g : Gate) : Trace :=
  { issuer := 3, gate := g, opening := 456, governed := 456, clamp := .none, qmin := 100, qmax := 2000, planned := 1356,
    admitted := { day := 1, second := 0 }, enqueued := none }

/-- A state whose sampler has an interval of 2, a count to go, and perhaps a command followed. -/
def sampling (s : State) (countdown : Nat) (tagged : Option Trace) : State :=
  s.setSampler { interval := 2, countdown := countdown, tagged := tagged, record := none }

/-- The base state with station 0 not supervised. -/
def unsupervised : State :=
  base.setStore { base.store with active := { plan with stations := plan.stations.set 0 (station 0 0 0) } }

theorem witness_AdmittedSetpointSetsTheTarget :
    (∀ s ∈ [base, silent .l1 (some 1), silent .l2 none, unsupervised, sampling base 1 none, sampling base 0 none, sampling working 0 (some (traceOf 3))], s.quiet)
    ∧ (setpointOf 3#8 3#8 0#8).length = 7 ∧ (readSetpoint (setpointOf 3#8 3#8 0#8)).gate = (3 : Gate).1
      ∧ (readSetpoint (setpointOf 3#8 3#8 0#8)).issuer ≤ 63
      ∧ base.active.authFor (readSetpoint (setpointOf 3#8 3#8 0#8)).issuer = some (plan.auth.get 0)
      ∧ (plan.auth.get 0).command = true ∧ (plan.auth.get 0).override = true
      ∧ (plan.auth.get 0).inWindow (3 : Gate).1 = true ∧ base.active.boundTo 0 3 = true
      ∧ (base.chan 3).state.takes = true ∧ (readSetpoint (setpointOf 3#8 3#8 0#8)).override = false
      ∧ (readSetpoint (setpointOf 3#8 3#8 1#8)).override = true
      ∧ 1000 < (readSetpoint [3#8, 3#8, 3#8, 233#8, 1#8, 0#8, 0#8]).opening ∧ (base.silenceOf 0).level = .l0
      ∧ 0 < (base.stationEntry 0).silenceCount ∧ ((silent .l1 (some 1)).silenceOf 0).level = .l1
      ∧ (silent .l1 (some 1)).active.gangOf 3 = none ∧ ((silent .l2 none).silenceOf 0).level = .l2
      ∧ (unsupervised.silenceOf 0).level = .l0 ∧ (unsupervised.stationEntry 0).silenceCount = 0
      ∧ unsupervised.active.authFor 3 = some (plan.auth.get 0) ∧ unsupervised.active.boundTo 0 3 = true
      ∧ (1 : StationId) ≠ 0 ∧ base.report.sampler.interval = 0
      ∧ 0 < (sampling base 1 none).report.sampler.interval ∧ (sampling base 1 none).report.sampler.tagged = none
      ∧ (sampling base 1 none).report.sampler.record = none ∧ 0 < (sampling base 1 none).report.sampler.countdown
      ∧ (sampling base 0 none).report.sampler.countdown = 0
      ∧ (sampling working 0 (some (traceOf 3))).report.sampler.tagged = some (traceOf 3) ∧ (traceOf 3).gate = 3 :=
  ⟨quiet_all (by decide), by decide⟩

theorem witness_WindowClampTargetAndMark :
    clampTo 500 300 400 false true = (400, .capMax) ∧ clampTo 200 300 400 true false = (300, .unreachableMin)
      ∧ clampTo 200 300 400 false false = (300, .capMin) ∧ clampTo 400 300 400 false true = (400, .range)
      ∧ clampTo 300 300 400 true false = (300, .none) := by decide

theorem storeSound_base : StoreSound base := ⟨by decide +kernel, by decide +kernel, by decide, by decide⟩

theorem openingsSound_base : OpeningsSound base := by
  refine ⟨storeSound_base, fun g => ?_⟩
  have h : ∀ g, fits (base.chan g).measured = true ∧ fits (base.chan g).governed = true
      ∧ fits (base.chan g).state.stepTarget = true ∧ fits (base.chan g).start = true := by decide +kernel
  exact ⟨openingIn_of (h g).1, openingIn_of (h g).2.1, openingIn_of (h g).2.2.1, openingIn_of (h g).2.2.2⟩

theorem witness_ClampKeepsTheWindow :
    OpeningsSound base ∧ base.active.boundTo 0 3 = true ∧ (base.chan 3).plannedOpening ≤ 1000
      ∧ 300 ≤ (base.chan 3).plannedOpening ∧ (base.windowClamp 0 3 1000 false).1 = 1000
      ∧ (base.windowClamp 0 3 0 false).1 = 0 :=
  ⟨openingsSound_base, by decide⟩

theorem witness_RatingConversionsAgree :
    StoreSound base ∧ (base.active.surfaces.get 0).isPresent = true
      ∧ (discharge (base.active.surfaces.get 0) 0 0 : Int) ≤ 0
      ∧ (-1 : Int) < (discharge (base.active.surfaces.get 0) 0 0 : Int)
      ∧ (lowerInverse (base.active.surfaces.get 0) 0 1000).2 = false
      ∧ (lowerInverse (base.active.surfaces.get 0) 0 1001).2 = true ∧ (base.stationEntry 0).isPresent = true
      ∧ ((base.stationEntry 0).pointList.map Point.level).headD 0 = 3000
      ∧ ((base.stationEntry 0).pointList.map Point.level).getLastD 0 = 4000
      ∧ ((base.stationEntry 0).pointList.map Point.storage).headD 0 = 10000
      ∧ (base.stationEntry 0).pointList
          = [] ++ { level := 3000, storage := 10000 } :: { level := 4000, storage := 30000 } :: []
      ∧ (4000 - 3000) ∣ (30000 - 10000) * (3999 - 3000) ∧ (30000 - 10000) ∣ (4000 - 3000) * (10020 - 10000) :=
  ⟨storeSound_base, by decide⟩

theorem witness_PositionUpdatesTheChannel :
    (∀ s ∈ [base, behindD (List.replicate 64 frame) []], s.quiet)
    ∧ [3#8, 1#8, 44#8, 0#8].length ≤ 56 ∧ [3#8, 1#8, 44#8, 0#8].length = 4
      ∧ byteAt [3#8, 1#8, 44#8, 0#8] 0 = (3 : Gate).1 ∧ (base.chan 3).state ≠ .unbound ∧ base.portD.fwd.length < 64
      ∧ 64 ≤ (behindD (List.replicate 64 frame) []).portD.fwd.length
      ∧ (∀ g : Gate, byteAt [4#8, 1#8, 44#8, 0#8] 0 = g.1 → (base.chan g).state = .unbound)
      ∧ (∀ g : Gate, byteAt [48#8, 1#8, 44#8, 0#8] 0 = g.1 → (base.chan g).state = .unbound) ∧ [3#8].length ≠ 4
      ∧ 56 < (List.replicate 57 (0#8 : Byte)).length :=
  ⟨quiet_all (by decide), by decide⟩

theorem witness_FlaggedPositionMovesTheChannel :
    (∀ s ∈ [base, inState 3 (.fault .drive)], s.quiet)
    ∧ [3#8, 1#8, 44#8, 1#8].length = 4 ∧ byteAt [3#8, 1#8, 44#8, 1#8] 0 = (3 : Gate).1
      ∧ (base.chan 3).state ≠ .unbound ∧ severest ([3#8, 1#8, 44#8, 1#8].getD 3 0#8) = .localHand
      ∧ (base.chan 3).state ≠ .localHand ∧ severest ([3#8, 1#8, 44#8, 3#8].getD 3 0#8) = .fault
      ∧ ((base.chan 3).state ≠ .fault .drive ∧ (base.chan 3).state ≠ .fault .trip)
      ∧ severest ([3#8, 1#8, 44#8, 4#8].getD 3 0#8) = .trip ∧ (base.gateEntry 3).isWicket = false
      ∧ ((inState 3 (.fault .drive)).chan 3).state = .fault .drive
      ∧ severest ([0#8, 1#8, 44#8, 7#8].getD 3 0#8) = .trip ∧ byteAt [0#8, 1#8, 44#8, 7#8] 0 = (0 : Gate).1
      ∧ (base.gateEntry 0).isWicket = true ∧ (base.chan 0).state ≠ .fault .trip
      ∧ (base.gateEntry 0).station? = some 0 ∧ (base.stationEntry 0).compGang? = some 0
      ∧ (base.chan 0).measured = some 300 ∧ 0 < base.rate 0 (base.headOf 0) 300
      ∧ base.portD.own.length + base.portD.reserved + 10 ≤ 32 ∧ byteAt [1#8, 1#8, 44#8, 2#8] 0 = (1 : Gate).1
      ∧ severest ([1#8, 1#8, 44#8, 2#8].getD 3 0#8) = .fault ∧ base.active.gangOf 1 = some 0
      ∧ (base.gang 0).isOut 1 = false ∧ (base.gangEntry 0).isPresent = true ∧ 2 ∈ base.members 0
      ∧ (base.gang 0).isOut 2 = false ∧ (base.chan 2).state = .idle
      ∧ base.members 0 = [] ++ 1 :: [2] ∧ (1 : Gate) ≠ 0 ∧ (1 : Gate) ∉ ([2] : List Gate) ∧ base.fillable 0 1 = true
      ∧ (base.gateEntry 1).surface = (0 : SurfaceId).1
      ∧ 0 < base.rate 1 (base.headOf 0) 1000 - base.rate 1 (base.headOf 0) 300
      ∧ 0 < (base.station 0).qmax - (base.plannedExcept 0 (fun h => h == 0) + base.rate 0 (base.headOf 0) 300) :=
  ⟨quiet_all (by decide), by decide⟩

/-- Member 1 of gang 0 in WAIT, with member 2 in another state and an out mark of member 1 set or clear. -/
def waiting (other : ChanState) (out : List Gate) : State :=
  ((inState 1 .wait).setChan 2 { base.chan 2 with state := other }).setGang 0 { base.gang 0 with hold := true, out := out }

theorem witness_UnflaggedPositionReturnsTheChannel :
    (∀ s ∈ [waiting .wait [], waiting .wait [1], waiting (.hold .gang) [], inState 3 .wait, inState 3 .localHand, inState 3 (.fault .trip), withChan 3 (Channel.resetAs .wait),
        inState 3 (.hold .stall), inState 3 (.dwell (some 1)), inState 1 (.hold .silence), base,
        withChan 3 { base.chan 3 with state := .wait, stale := true }], s.quiet)
    ∧ [3#8, 1#8, 44#8, 0#8].length = 4 ∧ byteAt [3#8, 1#8, 44#8, 0#8] 0 = (3 : Gate).1
      ∧ severest ([3#8, 1#8, 44#8, 0#8].getD 3 0#8) = .clear ∧ ((inState 3 .wait).chan 3).state = .wait
      ∧ ((inState 3 .localHand).chan 3).state = .localHand
      ∧ ((inState 3 (.fault .trip)).chan 3).state = .fault .trip
      ∧ ((withChan 3 (Channel.resetAs .wait)).chan 3).state = .wait
      ∧ ((withChan 3 (Channel.resetAs .wait)).chan 3).measured = none
      ∧ (withChan 3 (Channel.resetAs .wait)).active.gangOf 3 = none
      ∧ ((inState 3 (.hold .stall)).chan 3).state = .hold .stall
      ∧ ((inState 3 (.dwell (some 1))).chan 3).state = .dwell (some 1)
      ∧ ((withChan 3 { base.chan 3 with state := .wait, stale := true }).chan 3).measured ≠ none
      ∧ ((withChan 3 { base.chan 3 with state := .wait, stale := true }).chan 3).stale = true
      ∧ (inState 1 (.hold .silence)).active.gangOf 1 = some 0 ∧ ((inState 1 (.hold .silence)).gang 0).hold = false
      ∧ (inState 1 (.hold .silence)).blockers 0 = [] ∧ ((inState 1 (.hold .silence)).chan 1).state = .hold .silence
      ∧ (base.chan 3).state = .idle ∧ (base.chan 3).governed = some 300 ∧ base.active.gangOf 3 = none
      ∧ max 300 300 - min 300 300 ≤ (base.gateEntry 3).deadband
      ∧ byteAt [1#8, 1#8, 44#8, 0#8] 0 = (1 : Gate).1 ∧ severest ([1#8, 1#8, 44#8, 0#8].getD 3 0#8) = .clear
      ∧ ((waiting .wait []).chan 1).state = .wait ∧ (waiting .wait []).active.gangOf 1 = some 0
      ∧ ((waiting .wait []).gang 0).isOut 1 = false ∧ (2 ∈ (waiting .wait []).blockers 0 ∧ (2 : Gate) ≠ 1)
      ∧ ((waiting .wait [1]).gang 0).isOut 1 = true ∧ ((waiting .wait [1]).chan 1).state = .wait
      ∧ (∀ m ∈ (waiting (.hold .gang) []).blockers 0, m = 1) ∧ ((waiting (.hold .gang) []).chan 1).state = .wait :=
  ⟨quiet_all (by decide), by decide⟩

/-- Channel 1, a gang member, in STEP toward 305 su with the turn. -/
def stepping (hold pending : Bool) (dir : Dir) : State :=
  ((inState 2 (if hold then .wait else .idle)).setChan 1
      { base.chan 1 with state := .step 305 10, dwellDir := some dir, silencePending := pending }).setGang 0
    { base.gang 0 with holder := some 1, hold := hold }

theorem witness_ConfirmationEndsTheIncrement :
    (∀ s ∈ [inState 3 (.step 306 10), inState 3 (.step 305 10),
        withChan 3 { base.chan 3 with state := .step 305 10, silencePending := true }, stepping true false .up,
        stepping false true .up, stepping false false .up, stepping false false .down], s.quiet)
    ∧ [3#8, 1#8, 44#8, 0#8].length = 4 ∧ severest ([3#8, 1#8, 44#8, 0#8].getD 3 0#8) = .clear
      ∧ ((inState 3 (.step 306 10)).chan 3).state = .step 306 10
      ∧ min (fieldAt [3#8, 1#8, 44#8, 0#8] 1 2) 1000 = 300
      ∧ ((inState 3 (.step 306 10)).gateEntry 3).deadband < max 300 306 - min 300 306
      ∧ max 300 305 - min 300 305 ≤ ((inState 3 (.step 305 10)).gateEntry 3).deadband
      ∧ (inState 3 (.step 305 10)).active.gangOf 3 = none
      ∧ ((inState 3 (.step 305 10)).chan 3).silencePending = false
      ∧ dwellLength ((inState 3 (.step 305 10)).chan 3).dwellDir 20 0 = 20 ∧ dwellLength (some .down) 20 0 = 0
      ∧ ((withChan 3 { base.chan 3 with state := .step 305 10, silencePending := true }).chan 3).silencePending = true
      ∧ byteAt [1#8, 1#8, 44#8, 0#8] 0 = (1 : Gate).1 ∧ ((stepping true false .up).chan 1).state = .step 305 10
      ∧ (stepping true false .up).active.gangOf 1 = some 0
      ∧ ((stepping true false .up).gangEntry 0).isPresent = true ∧ ((stepping true false .up).gang 0).hold = true
      ∧ (stepping true false .up).blockers 0 ≠ [] ∧ ((stepping true false .up).gang 0).holder = some 1
      ∧ ((stepping false true .up).gang 0).hold = false ∧ (stepping false true .up).blockers 0 = []
      ∧ ((stepping false true .up).chan 1).silencePending = true ∧ (stepping false false .up).blockers 0 = []
      ∧ ((stepping false false .up).chan 1).silencePending = false
      ∧ dwellLength (some .up) (base.gangEntry 0).dwellUp (base.gangEntry 0).dwellDown = 30
      ∧ dwellLength (some .down) (base.gangEntry 0).dwellUp (base.gangEntry 0).dwellDown = 0 :=
  ⟨quiet_all (by decide), by decide⟩

theorem witness_ExpiriesAct :
    (∀ s ∈ [withChan 3 { base.chan 3 with staleDue := true }, base, inState 3 (.step 350 0),
        inState 3 (.step 350 1), withHead 5 false true,
        sampling (inState 3 (.step 350 0)) 0 (some (traceOf 3))], s.quiet)
    ∧ ((withChan 3 { base.chan 3 with staleDue := true }).chan 3).staleDue = true
      ∧ ((withChan 3 { base.chan 3 with staleDue := true }).chan 3).state ≠ .unbound
      ∧ (base.chan 3).staleDue = false ∧ (base.chan 4).state = .unbound
      ∧ ((inState 3 (.step 350 0)).chan 3).state = .step 350 0
      ∧ ((inState 3 (.step 350 1)).chan 3).state = .step 350 1
      ∧ (((withHead 5 false true).station 0).gauge .headwater).staleDue = true
      ∧ ((withHead 5 false true).stationEntry 0).isPresent = true
      ∧ ((base.station 0).gauge .tailwater).staleDue = false ∧ (base.stationEntry 2).isPresent = false
      ∧ (sampling (inState 3 (.step 350 0)) 0 (some (traceOf 3))).report.sampler.tagged = some (traceOf 3) :=
  ⟨quiet_all (by decide), by decide⟩

/-- Channel 3 at the end of its dwell with a target of 306. -/
def dwelling : State := withChan 3 { base.chan 3 with state := .dwell (some 0), governed := some 306 }

/-- The gang dwell of member 1 is at its end, and member 2, the last mover, has a step to make. -/
def gangWorking : State := (gangDwelling 0).setChan 2 { base.chan 2 with governed := some 400 }

theorem witness_DwellsEnd :
    (∀ s ∈ [inState 3 (.dwell (some 0)), dwelling, inState 3 (.dwell (some 1)), gangDwelling 0, gangDwelling 1,
        gangWorking, base], s.quiet)
    ∧ ((inState 3 (.dwell (some 0))).chan 3).state = .dwell (some 0)
      ∧ (inState 3 (.dwell (some 0))).active.gangOf 3 = none ∧ (inState 3 (.dwell (some 0))).hasWork 3 = false
      ∧ (dwelling.chan 3).governed = some 306 ∧ (dwelling.chan 3).measured = some 300 ∧ dwelling.hasWork 3 = true
      ∧ stepToward (dwelling.gateEntry 3) (none, none) 300 306 = some 306
      ∧ dwelling.portF.room (dwelling.queueFor 3) = true
      ∧ ((inState 3 (.dwell (some 1))).chan 3).state ≠ .dwell (some 0)
      ∧ ((gangDwelling 0).gang 0).dwell = some { dir := .up, remaining := 0, member := 1 }
      ∧ (base.gang 0).dwell = none
      ∧ ((gangDwelling 1).gang 0).dwell = some { dir := .up, remaining := 1, member := 1 }
      ∧ (gangWorking.gangEntry 0).isPresent = true ∧ (gangWorking.gang 0).dwell = ((gangDwelling 0).gang 0).dwell
      ∧ (gangWorking.gang 0).holder = none ∧ (gangWorking.gang 0).hold = false ∧ gangWorking.blockers 0 = []
      ∧ (gangWorking.chan 1).state.isDwell = true
      ∧ scanOrder (gangWorking.members 0) (gangWorking.gang 0).lastMover = [1] ++ 2 :: []
      ∧ ((gangWorking.setGang 0 { gangWorking.gang 0 with dwell := none }).enter 1 .idle).workTarget 1 = none
      ∧ ((gangWorking.setGang 0 { gangWorking.gang 0 with dwell := none }).enter 1 .idle).workTarget 2 = some 350
      ∧ (gangWorking.gang 0).isOut 2 = false ∧ gangWorking.active.gangOf 2 = some 0
      ∧ gangWorking.portF.room (gangWorking.queueFor 2) = true
      ∧ (3 : Gate) ∉ ([1, 2] : List Gate) ∧ scanOrder ([1, 2] ++ 3 :: [4]) (some 3) = [4] ++ [1, 2] ++ [3] :=
  ⟨quiet_all (by decide), by decide⟩

/-- Channel 3 has work and ROUTINE holds 64 frames. -/
def routineFull : State := working.setPortF { PortF.reset with routine := List.replicate 64 frame }

/-- Channel 3 has work that must go to URGENT. -/
def compensating : State := withChan 3 { base.chan 3 with governed := some 306, source := .compensation }

theorem witness_IncrementStarts :
    (∀ s ∈ [working, compensating, routineFull, base], s.quiet)
    ∧ working.workTarget 3 = some 306 ∧ working.mayStart 3 = true ∧ working.portF.room (working.queueFor 3) = true
      ∧ working.queueFor 3 = .routine ∧ compensating.workTarget 3 = some 306 ∧ compensating.mayStart 3 = true
      ∧ compensating.portF.room (compensating.queueFor 3) = true ∧ compensating.queueFor 3 = .urgent
      ∧ routineFull.workTarget 3 = some 306 ∧ routineFull.mayStart 3 = true
      ∧ routineFull.portF.room (routineFull.queueFor 3) = false ∧ base.workTarget 3 = none
      ∧ base.mayStart 1 = false :=
  ⟨quiet_all (by decide), by decide⟩

theorem witness_StepTargetKeepsItsBounds :
    stepToward (plan.gates.get 3) (none, none) 300 301 = some 301
      ∧ stepToward (plan.gates.get 3) (none, none) 300 400 = some 350
      ∧ stepToward (plan.gates.get 3) (some 320, none) 300 400 = some 320
      ∧ stepToward (plan.gates.get 3) (none, none) 300 299 = some 299
      ∧ stepToward (plan.gates.get 3) (none, none) 300 100 = some 250
      ∧ stepToward (plan.gates.get 3) (none, some 280) 300 100 = some 280 := by decide

/-- The base state with a tailwater record of station 1. -/
def withTail (stale : Bool) : State :=
  withStation 1 { base.station 1 with tw := { level := some 5, age := 600, stale := stale, staleDue := false } }

theorem witness_GaugeFrameUpdatesItsRecord :
    (∀ s ∈ [base, withHead 5 true false, withTail true, behindD (List.replicate 64 frame) []], s.quiet)
    ∧ [0#8, 1#8, 2#8, 1#8].length = 4 ∧ byteAt [0#8, 1#8, 2#8, 1#8] 0 ≤ 15
      ∧ readQuality (byteAt [0#8, 1#8, 2#8, 1#8] 3) = some .suspect
      ∧ base.active.stationOfGauge .headwater (byteAt [0#8, 1#8, 2#8, 1#8] 0) = some 0
      ∧ ((withHead 5 true false).station 0).hw.stale = true
      ∧ base.active.stationOfGauge .headwater (byteAt [3#8, 1#8, 2#8, 0#8] 0) = none
      ∧ base.active.stationOfGauge .tailwater (byteAt [3#8, 1#8, 2#8, 0#8] 0) = some 1 ∧ readQuality 0 = some .good
      ∧ ((withTail true).station 1).tw.stale = true ∧ (base.station 1).tw.stale = false
      ∧ base.portD.fwd.length < 64 ∧ 64 ≤ (behindD (List.replicate 64 frame) []).portD.fwd.length
      ∧ readQuality 2 = none ∧ 15 < byteAt [16#8, 1#8, 2#8, 0#8] 0 ∧ base.active.stationOfGauge .headwater 15 = none
      ∧ base.active.stationOfGauge .tailwater 15 = none ∧ [3#8].length ≠ 4 ∧ [3#8].length ≤ 56
      ∧ 56 < (List.replicate 57 (0#8 : Byte)).length :=
  ⟨quiet_all (by decide), by decide⟩

theorem witness_CrossingsAreCaptured :
    (∀ s ∈ [base, withHead 3499 false false, withHead 3500 false false, withHead 3600 false false], s.quiet)
    ∧ [0#8, 13#8, 172#8, 0#8].length = 4 ∧ readQuality (byteAt [0#8, 13#8, 172#8, 0#8] 3) = some .good
      ∧ (withHead 3499 false false).active.stationOfGauge .headwater (byteAt [0#8, 13#8, 172#8, 0#8] 0) = some 0
      ∧ ((withHead 3499 false false).station 0).hw.level = some 3499
      ∧ fieldAt [0#8, 13#8, 172#8, 0#8] 1 2 = 3500 ∧ ((base.stationEntry 0).markAt 0).isPresent = true
      ∧ ((base.stationEntry 0).markAt 0).countsRising = true ∧ 3499 < ((base.stationEntry 0).markAt 0).level
      ∧ ((base.stationEntry 0).markAt 0).level ≤ 3500 ∧ ((base.stationEntry 0).markAt 0).floor = some .watch
      ∧ ((withHead 3500 false false).station 0).hw.level = some 3500
      ∧ ((base.stationEntry 0).markAt 0).countsFalling = true ∧ ((base.stationEntry 0).markAt 0).level ≤ 3500
      ∧ fieldAt [0#8, 13#8, 171#8, 0#8] 1 2 < ((base.stationEntry 0).markAt 0).level
      ∧ ((base.stationEntry 0).markAt 1).countsFalling = false ∧ ((base.stationEntry 0).markAt 1).level ≤ 3600
      ∧ 3599 < ((base.stationEntry 0).markAt 1).level
      ∧ ({ (base.stationEntry 0).markAt 0 with flags := 0xC0#8 } : MarkEntry).countsRising = false
      ∧ ({ (base.stationEntry 0).markAt 0 with flags := 0x61#8 } : MarkEntry).isPresent = false
      ∧ (¬ 3500 < ((base.stationEntry 0).markAt 0).level) ∧ (base.station 0).hw.level = none
      ∧ base.portD.own.length + base.portD.reserved + 4 ≤ 32 :=
  ⟨quiet_all (by decide), by decide⟩

/-- The first silence expiry of station 0 is due, with channel `g` in a state. -/
def expiring (g : Gate) (st : ChanState) : State :=
  (silent .l0 (some 0)).setChan g { base.chan g with state := st }

/-- The first silence expiry of station 0 is due, with member 1 in the hold of the gang that member 2 holds. -/
def expiringHeld : State := ((expiring 1 (.hold .gang)).setChan 2 { base.chan 2 with state := .wait }).setGang 0
  { base.gang 0 with hold := true }

theorem witness_FirstSilenceExpiryHolds :
    (∀ s ∈ [silent .l0 (some 0), silent .l0 (some 1), expiring 3 .wait, expiring 3 .localHand, expiring 3 (.fault .drive),
        expiring 3 (.hold .stall), expiring 3 (.step 350 1), expiringHeld], s.quiet)
    ∧ StoreSound (silent .l0 (some 0))
    ∧ (silent .l0 (some 0)).silenceDue 0 .l0 = true ∧ (silent .l0 (some 1)).silenceDue 0 .l0 = false
      ∧ ((silent .l0 (some 0)).chan 3).state = .idle ∧ base.active.boundTo 0 3 = true
      ∧ (expiring 3 .wait).silenceDue 0 .l0 = true ∧ ((expiring 3 .wait).chan 3).state = .wait
      ∧ ((expiring 3 .localHand).chan 3).state = .localHand
      ∧ ((expiring 3 (.fault .drive)).chan 3).state = .fault .drive
      ∧ ((expiring 3 (.hold .stall)).chan 3).state = .hold .stall ∧ HoldCause.stall ≠ .gang
      ∧ ((expiring 3 (.step 350 1)).chan 3).state.isStep = true
      ∧ expiringHeld.silenceDue 0 .l0 = true ∧ (expiringHeld.chan 1).state = .hold .gang
      ∧ (∀ n, 1 ∈ expiringHeld.members n → expiringHeld.blockers n ≠ [])
      ∧ (silent .l0 (some 0)).active.boundTo 0 4 = false :=
  ⟨quiet_all (by decide), storeSound_base, by decide⟩

theorem witness_SecondSilenceExpiryFallsBack :
    (∀ s ∈ [silent .l1 (some 0), silent .l0 (some 0)], s.quiet)
    ∧ (silent .l1 (some 0)).silenceDue 0 .l1 = true ∧ (silent .l1 (some 0)).active.boundTo 0 3 = true
      ∧ ((silent .l1 (some 0)).chan 3).fallsBack = true ∧ ((silent .l1 (some 0)).gateEntry 3).fallback? = some 200
      ∧ (∀ h : Gate, h.1 < (3 : Gate).1 → (silent .l1 (some 0)).active.boundTo 0 h = true →
          ((silent .l1 (some 0)).chan h).fallsBack = false ∨ ((silent .l1 (some 0)).gateEntry h).fallback? = none)
      ∧ ((silent .l1 (some 0)).gateEntry 0).fallback? = none ∧ (silent .l0 (some 0)).silenceDue 0 .l1 = false :=
  ⟨quiet_all (by decide), by decide⟩

theorem witness_ResumeStationEndsSilence :
    (∀ x ∈ [ask base (req 6#8 [6#8]) .resumeStation, ask base (req 6#8 [5#8]) .resumeStation,
        ask base (req 6#8 [0#8]) .resumeStation, ask base (req 6#8 [1#8]) .resumeStation,
        ask (silent .l1 (some 1)) (req 6#8 [0#8]) .resumeStation,
        ask (silent .l2 none) (req 6#8 [0#8]) .resumeStation], Asks x)
    ∧ reqArgs (req 6#8 [6#8]) = [6#8] ∧ 5 < (6#8 : Byte).toNat ∧ (5#8 : Byte).toNat = (5 : StationId).1
      ∧ (base.stationEntry 5).isPresent = false ∧ (base.stationEntry 0).isPresent = true
      ∧ (base.silenceOf 0).level = .l0 ∧ 0 < (base.stationEntry 0).silenceCount ∧ (base.silenceOf 1).level = .l0
      ∧ (base.stationEntry 1).silenceCount = 0 ∧ ((silent .l1 (some 1)).silenceOf 0).level ≠ .l0
      ∧ ((silent .l2 none).silenceOf 0).level = .l2 :=
  ⟨asks_all (by decide), by decide⟩

theorem queuesFit_all {l : List State} (h : (l.all fun s => s.inbox == [] && s.portF == PortF.reset
    && s.portD == PortD.reset) = true) : ∀ s ∈ l, QueuesFit s := fun s hs => by
  have h := List.all_eq_true.mp h s hs
  simp only [Bool.and_eq_true, beq_iff_eq] at h
  obtain ⟨⟨hi, hf⟩, hd⟩ := h
  unfold QueuesFit
  rw [hi, hf, hd]
  exact ⟨by decide, by decide, by decide, by decide, by decide, rfl, by decide, .inl rfl⟩

/-- Every event that time makes due is among those a second tick takes. -/
theorem mem_dueEvents (e : DueEvent) : e ∈ expiries ++ minuteEvents .whole := by
  unfold expiries minuteEvents
  cases e with
  | gaugeStale k role => cases role <;> simp [mem_allFin]
  | _ => simp [mem_allFin]

theorem none_due_all {l : List State} (h : (l.all fun s => (expiries ++ minuteEvents .whole).all fun e => !s.isDue e) = true) :
    ∀ s ∈ l, ∀ e, s.isDue e = false := fun s hs e => by
  have h := List.all_eq_true.mp (List.all_eq_true.mp h s hs) e (mem_dueEvents e)
  exact Bool.not_eq_true' _ ▸ h

theorem witness_SecondTickAdvancesTheClock :
    (∀ s ∈ [atTime 0 1 0 0 58, atTime 0 1 0 58 59, atTime 0 1 22 59 59, atTime 4 365 23 59 59, atTime 98 365 23 59 59,
        atTime 99 365 23 59 59], s.quiet)
    ∧ (∀ s ∈ [atTime 0 1 0 0 58, atTime 0 1 0 58 59, atTime 0 1 22 59 59, atTime 4 365 23 59 59, atTime 98 365 23 59 59,
        atTime 99 365 23 59 59], QueuesFit s)
    ∧ (atTime 0 1 0 0 58).clock.second < 59 ∧ (atTime 0 1 0 58 59).clock.second = 59
      ∧ (atTime 0 1 0 58 59).clock.minute < 59 ∧ (atTime 0 1 22 59 59).clock.minute = 59
      ∧ (atTime 0 1 22 59 59).clock.hour < 23 ∧ (atTime 4 365 23 59 59).clock.hour = 23
      ∧ (atTime 4 365 23 59 59).clock.day < (if (atTime 4 365 23 59 59).clock.year % 4 = 0 then 366 else 365)
      ∧ (atTime 98 365 23 59 59).clock.day = (if (atTime 98 365 23 59 59).clock.year % 4 = 0 then 366 else 365)
      ∧ (atTime 98 365 23 59 59).clock.year < 99
      ∧ (atTime 99 365 23 59 59).clock.day = (if (atTime 99 365 23 59 59).clock.year % 4 = 0 then 366 else 365)
      ∧ (atTime 99 365 23 59 59).clock.year = 99 :=
  ⟨quiet_all (by decide), queuesFit_all (by decide), by decide⟩

theorem witness_SecondTickCountsEveryTimer :
    (∀ s ∈ [base, inState 3 (.step 350 1), inState 3 (.dwell (some 1)), withHead 3500 false false], s.quiet)
    ∧ (∀ s ∈ [base, inState 3 (.step 350 1), inState 3 (.dwell (some 1)), withHead 3500 false false],
        ∀ e, s.isDue e = false)
    ∧ (base.chan 3).measured ≠ none ∧ (base.chan 3).state ≠ .unbound ∧ (base.chan 3).state.isStep = false
      ∧ (base.chan 4).measured = none ∧ ((base.station 0).gauge .headwater).level = none
      ∧ ((inState 3 (.step 350 1)).chan 3).state = .step 350 1
      ∧ ((inState 3 (.dwell (some 1))).chan 3).state = .dwell (some 1)
      ∧ (((withHead 3500 false false).station 0).gauge .headwater).level ≠ none ∧ base.clock.second ≠ 59 :=
  ⟨quiet_all (by decide), none_due_all (by decide +kernel), by decide⟩

theorem witness_MinuteRatesTheOutflow :
    (∀ s ∈ [owing true false false, base], s.quiet)
    ∧ (owing true false false).minuteDue.outflow = true ∧ ((owing true false false).stationEntry 0).isPresent = true
      ∧ ((owing true false false).stationEntry 2).isPresent = false ∧ base.minuteDue.outflow = false
      ∧ base.minuteDue = MinuteDue.none :=
  ⟨quiet_all (by decide), by decide⟩

/-- A balance is owed, and station 0 holds a storage estimate and a stage. -/
def balancing (valid : Bool) (stage : Stage) (positioned : Bool) : State :=
  (owing false true false).setStation 0
    { base.station 0 with storageValid := valid, stage := stage, positioned := positioned }

/-- The balance part of the minute leaves station 0 at a stage. -/
def balancedTo (s : State) (stage : Stage) : Bool :=
  gives (.modelMinute .balance) s fun t => decide ((t.station 0).stage = stage)

theorem witness_MinuteBalancesEveryStation :
    (∀ s ∈ [balancing true .normal false, balancing true .normal true, balancing false .surcharge false,
        balancing false .normal false, (owing false true false).setReach 0
          { base.reach 0 with unseeded := false }], s.quiet)
    ∧ (∀ s ∈ [balancing true .normal false, balancing true .normal true, balancing false .surcharge false,
        balancing false .normal false, (owing false true false).setReach 0
          { base.reach 0 with unseeded := false }], QueuesFit s)
    ∧ (owing false true false).minuteDue.outflow = false ∧ (owing false true false).minuteDue.balance = allFin 6
      ∧ ((owing false true false).reachEntry 0).isPresent = true ∧ ((owing false true false).reach 0).unseeded = true
      ∧ ((balancing true .normal false).station (upperOf 0)).positioned = false
      ∧ ((balancing true .normal true).station (upperOf 0)).positioned = true
      ∧ (((owing false true false).setReach 0 { base.reach 0 with unseeded := false }).reach 0).unseeded = false
      ∧ lowerOf 0 = 1 ∧ ((owing false true false).stationEntry 1).isPresent = true
      ∧ ((owing false true false).stationEntry 0).isPresent = true
      ∧ ((balancing true .normal false).station 0).storageValid = true
      ∧ ((balancing false .normal false).station 0).storageValid = false
      ∧ balancedTo (balancing true .normal false) .watch = true
      ∧ balancedTo (balancing false .surcharge false) .surcharge = true
      ∧ balancedTo (balancing false .normal false) .normal = true :=
  ⟨quiet_all (by decide), queuesFit_all (by decide), by decide +kernel⟩

theorem witness_StageAndWindow :
    StoreSound base ∧ (base.stationEntry 0).isPresent = true
      ∧ (base.stationEntry 0).nextStage .normal 20000 none = .watch ∧ (base.stationEntry 0).threshold .watch ≤ 20000
      ∧ (base.stationEntry 0).sWatch < (base.stationEntry 0).sPre
      ∧ (base.stationEntry 0).sPre < (base.stationEntry 0).sSur
      ∧ (base.stationEntry 0).nextStage .watch 18999 none = .normal
      ∧ (base.stationEntry 0).nextStage .watch 19000 none = .watch
      ∧ 18999 + (base.stationEntry 0).hysteresis < (base.stationEntry 0).threshold .watch
      ∧ ((base.stationEntry 0).activeFloor none).code < Stage.watch.code
      ∧ ([.watch, .preRelease, .surcharge].all fun st => decide (18999 < (base.stationEntry 0).threshold st)) = true
      ∧ (base.stationEntry 0).nextStage .normal 0 (some 3500) = .watch
      ∧ (base.stationEntry 0).activeFloor (some 3500) = .watch :=
  ⟨storeSound_base, by decide⟩

theorem witness_AppendTakesTheFirstCaseThatApplies :
    ([{ flow := 5, minutes := 1439 }] : List Parcel) = [] ++ [{ flow := 5, minutes := 1439 }]
      ∧ (¬ ((5 : Nat) = 5 ∧ (1440 : Nat) < 1440))
      ∧ (List.replicate 95 ({ flow := 5, minutes := 1 } : Parcel)).length < 96
      ∧ 96 ≤ (List.replicate 96 ({ flow := 5, minutes := 1 } : Parcel)).length
      ∧ (List.replicate 96 ({ flow := 5, minutes := 1 } : Parcel)) = List.replicate 95
        { flow := 5, minutes := 1 } ++ [{ flow := 5, minutes := 1 }]
      ∧ (¬ ((5 : Nat) = 6 ∧ (1 : Nat) < 1440)) := by decide

theorem witness_LineConservesAndLooksAhead :
    (∀ p ∈ ([{ flow := 5, minutes := 1 }] : List Parcel), 1 ≤ p.minutes)
      ∧ ([{ flow := 5, minutes := 1 }] : List Parcel) ≠ []
      ∧ (dropFront [{ flow := 5, minutes := 2 }]).getLast? = some { flow := 5, minutes := 1 } := by decide

theorem witness_ScheduleFiresMatchingEntries :
    (∀ s ∈ [owing false false true], s.quiet)
    ∧ (owing false false true).minuteDue.schedule = true ∧ (owing false false true).armed.get 0 = true
      ∧ scheduleMatches ((owing false false true).active.sched.get 0) (owing false false true).clock = true
      ∧ (∀ m, m ≠ 0 → (owing false false true).armed.get m = true → scheduleMatches ((owing false false true).active.sched.get m) (owing false false true).clock = false)
      ∧ ((owing false false true).active.sched.get 0).gate = (3 : Gate).1
      ∧ (owing false false true).active.boundTo 0 3 = true ∧ (owing false false true).silenceLevelOf 3 = .l0
      ∧ ((owing false false true).chan 3).state.takes = true ∧ ((inState 3 .wait).chan 3).state.takes = false
      ∧ (silent .l1 (some 5)).silenceLevelOf 3 ≠ .l0
      ∧ (∀ n, (atTime 0 1 0 1 0).armed.get n = true → scheduleMatches ((atTime 0 1 0 1 0).active.sched.get n) (atTime 0 1 0 1 0).clock = false) :=
  ⟨quiet_all (by decide), by decide⟩

/-- The inbox is full. -/
def inboxFull : State := { base with inbox := List.replicate 4 (req 12#8 []) }

/-- UP_OWN is full, and the inbox holds three requests. -/
def noPlace : State := { behindD [] (List.replicate 32 ownFrame) with inbox := List.replicate 3 (req 12#8 []) }

theorem witness_RequestsEnterTheInbox :
    (∀ s ∈ [base, inboxFull, noPlace], s.quiet)
    ∧ base.node = some 0#8 ∧ (req 12#8 []).length ≤ 56 ∧ req 12#8 [] ≠ [] ∧ base.inbox = [] ∧ base.ownRoom = true
      ∧ readRequest (req 12#8 []) ≠ .restart ∧ readRequest (req 12#8 []) ≠ .setClock
      ∧ 4 ≤ inboxFull.inbox.length ∧ noPlace.inbox.length < 4 ∧ noPlace.ownRoom = false :=
  ⟨quiet_all (by decide), by decide⟩

/-- A request of issuer 5, which holds no MANAGE. -/
def unprivileged : List Byte := [5#8, 12#8, 0#8, 0#8]

/-- Two requests wait. -/
def askingTwice : State := { base with inbox := [req 12#8 [], req 0#8 []] }

theorem witness_RefusedRequestsChangeNothing :
    (∀ s ∈ [asking base unprivileged, base, askingTwice, asking (behindD [] (List.replicate 32 ownFrame))
      (req 12#8 [])],
        s.quiet)
    ∧ (∀ x ∈ [ask base (req 13#8 []) .readSnapshot, ask base (req 0#8 []) .badKind], Asks x)
    ∧ (asking base unprivileged).inbox = [unprivileged] ∧ (asking base unprivileged).ownRoom = true
      ∧ (asking base unprivileged).active.manages (reqIssuer unprivileged).toNat = false
      ∧ Request.argsFit .readSnapshot (reqArgs (req 13#8 [])).length = false ∧ base.inbox = []
      ∧ (asking (behindD [] (List.replicate 32 ownFrame)) (req 12#8 [])).ownRoom = false
      ∧ askingTwice.inbox.head? = some (req 12#8 []) ∧ Request.command .copy ≠ (readRequest (req 12#8 [])).command
      ∧ readRequest (req 12#8 []) ≠ .abandonCopy ∧ askingTwice.inbox = req 12#8 [] :: [req 0#8 []]
      ∧ askingTwice.ownRoom = true ∧ readRequest (req 12#8 []) = .snapshot ∧ base.minuteOwed = false :=
  ⟨quiet_all (by decide), asks_all (by decide), by decide⟩

theorem witness_ReadEntryReturnsThePlace :
    (∀ x ∈ [ask base (req 1#8 [0#8, 7#8, 31#8, 0#8]) .readEntry, ask base
      (req 1#8 [2#8, 8#8, 0#8, 0#8]) .readEntry], Asks x)
    ∧ reqArgs (req 1#8 [0#8, 7#8, 31#8, 0#8]) = [0#8, 7#8, 31#8, 0#8] ∧ planPlace 7 31 0 = some (.sched 31)
      ∧ planPlace 0 0 0 = some .header ∧ (0#8 : Byte).toNat = 0 ∧ (1#8 : Byte).toNat = 1 ∧ planPlace 8 0 0 = none
      ∧ planPlace 4 48 0 = none ∧ 1 < (2#8 : Byte).toNat :=
  ⟨asks_all (by decide), by decide⟩

theorem witness_LoadRunWritesPending :
    (∀ x ∈ [ask base (req 2#8 [0#8, 1#8]) .openLoad,
        ask (stored (some 1) false plan) (req 2#8 [0#8, 1#8]) .openLoad,
        ask base (req 2#8 [0#8, 0#8]) .openLoad, ask base (req 3#8 [8#8, 0#8, 0#8]) .writeEntry,
        ask base (req 3#8 [2#8, 0#8, 0#8, 1#8]) .writeEntry,
        ask base (req 3#8 [2#8, 0#8, 0#8, 1#8, 0#8, 5#8]) .writeEntry,
        ask (stored (some 1) false plan) (req 3#8 [2#8, 0#8, 0#8, 1#8, 0#8, 5#8]) .writeEntry], Asks x)
    ∧ (reqArgs (req 2#8 [0#8, 1#8])).length = 2 ∧ 1 ≤ fieldAt (reqArgs (req 2#8 [0#8, 1#8])) 0 2
      ∧ fieldAt (reqArgs (req 2#8 [4#8, 0#8])) 0 2 ≤ 1024 ∧ base.store.run = none
      ∧ (stored (some 1) false plan).store.run ≠ none ∧ fieldAt (reqArgs (req 2#8 [0#8, 0#8])) 0 2 = 0
      ∧ 1024 < fieldAt (reqArgs (req 2#8 [4#8, 1#8])) 0 2
      ∧ reqArgs (req 3#8 [8#8, 0#8, 0#8]) = [8#8, 0#8, 0#8] ++ [] ∧ planPlace 8 0 0 = none
      ∧ planPlace 2 0 0 = some (.reach 0) ∧ [1#8].length ≠ (PlanPlace.reach 0).size
      ∧ [1#8, 0#8, 5#8].length = (PlanPlace.reach 0).size ∧ base.store.run = none
      ∧ (stored (some 1) false plan).store.run = some 1 :=
  ⟨asks_all (by decide), by decide⟩

theorem witness_WrittenEntriesReadBack :
    (List.replicate 48 (7#8 : Byte)).length = (PlanPlace.points 5 1).size
      ∧ (List.replicate 19 (7#8 : Byte)).length = (PlanPlace.gate 47).size
      ∧ PlanPlace.points 5 0 ≠ .points 5 1 ∧ PlanPlace.station 5 ≠ .points 5 1
      ∧ (Plan.empty.write (.station 0) (List.replicate (PlanPlace.station 0).size 7#8)).read (.gate 0)
          = Plan.empty.read (.gate 0) ∧ PlanPlace.gate 0 ≠ .station 0 ∧ PlanPlace.points 1 0 ≠ .station 0
      ∧ PlanPlace.row 1 0 ≠ .surface 0 := by decide

/-- The plan with a horizon of 0 minutes, which fails a check. -/
def broken : Plan := { plan with stations := plan.stations.set 0 { plan.stations.get 0 with horizon := 0 } }

/-- The plan with gate 0 absent and gate 3 of another kind. -/
def alt : Plan := { plan with gates := (plan.gates.set 0 GateEntry.absent).set 3 (gate 1 0 65535) }

/-- Channel 3, which the other plan binds otherwise, is in STEP. -/
def midStep : State := (inState 3 (.step 350 1)).setStore { base.store with planPending := alt }

theorem witness_PlanControlActsOnPending :
    (∀ x ∈ [ask base (req 4#8 [1#8]) .abandon, ask base (req 4#8 [2#8]) .copy,
        ask (stored (some 1) false plan) (req 4#8 [2#8]) .copy, ask base (req 4#8 [3#8]) .abandonCopy,
        ask (stored (some 1) false plan) (req 4#8 [4#8]) .check, ask base (req 4#8 [4#8]) .check,
        ask (stored none false broken) (req 4#8 [4#8]) .check,
        ask (stored (some 1) false plan) (req 4#8 [8#8]) .commit,
        ask (stored none true plan) (req 4#8 [8#8]) .commit,
        ask (stored none false broken) (req 4#8 [8#8]) .commit,
        ask midStep (req 4#8 [8#8]) .commit], Asks x)
    ∧ base.store.run = none ∧ (stored (some 1) false plan).store.run ≠ none ∧ base.store.planPending.fault = none
      ∧ (stored none false broken).store.planPending.fault = some (1, 0, 1)
      ∧ (stored none true plan).store.writing = true ∧ (stored none true plan).store.run = none
      ∧ midStep.commitBlocker = some 3
      ∧ midStep.store.planPending.fault = none :=
  ⟨asks_all (by decide), by decide⟩

/-- The plan with another travel time of reach 0 and the members of gang 0 the other way round. -/
def turned : Plan :=
  { plan with reaches := plan.reaches.set 0 { plan.reaches.get 0 with tau := 3 }
              gangs := plan.gangs.set 0 { plan.gangs.get 0 with members := (plan.gangs.get 0).members.set 0 2 |>.set 1 1 } }

/-- The plan waits to follow the empty plan. -/
def loaded : State := base.setStore { base.store with active := Plan.empty }

theorem witness_CommitSwapsThePlanIn :
    (∀ x ∈ [ask (stored none false alt) (req 4#8 [8#8]) .commit, ask (stored none false turned) (req 4#8 [8#8]) .commit,
        ask (stored none false Plan.empty) (req 4#8 [8#8]) .commit, ask loaded (req 4#8 [8#8]) .commit], Asks x)
    ∧ (∀ s ∈ [stored none false turned, stored none false Plan.empty, loaded], s.store.run = none ∧ s.store.writing = false
        ∧ s.store.planPending.fault = none ∧ s.commitBlocker = none)
    ∧ turned.hasReach 0 = true ∧ (base.active.reaches.get 0).tau ≠ (turned.reaches.get 0).tau
      ∧ (turned.gangs.get 0).isPresent = true ∧ base.active.membersOf 0 ≠ turned.membersOf 0
      ∧ Plan.empty.hasReach 0 = false ∧ Plan.empty.hasStation 1 = false ∧ Plan.empty.bound 1 = false
      ∧ (Plan.empty.gangs.get 0).isPresent = false ∧ 1 ∈ base.active.membersOf 0 ∧ Plan.empty.gangOf 1 = none
      ∧ loaded.active.hasReach 0 = false ∧ loaded.store.planPending.hasReach 0 = true
      ∧ loaded.active.bound 0 = false ∧ loaded.store.planPending.bound 0 = true
      ∧ loaded.active.hasStation 0 = false ∧ loaded.store.planPending.hasStation 0 = true
      ∧ (alt.gangs.get 0).isPresent = true ∧ base.active.membersOf 0 = alt.membersOf 0
      ∧ (base.active.reaches.get 0).tau = (alt.reaches.get 0).tau
    ∧ (stored none false alt).store.run = none ∧ (stored none false alt).store.writing = false
      ∧ (stored none false alt).store.planPending.fault = none ∧ (stored none false alt).commitBlocker = none
      ∧ base.active.bound 0 = true ∧ Plan.bound (alt) 0 = false ∧ base.active.binding 3 ≠ Plan.binding (alt) 3
      ∧ base.active.binding 1 = Plan.binding (alt) 1 ∧ base.active.hasStation 0 = true
      ∧ base.active.hasReach 0 = true ∧ Plan.empty.bound 0 = false ∧ Plan.empty.hasStation 0 = false :=
  ⟨asks_all (by decide), by decide +kernel, by decide +kernel⟩

theorem witness_SetClockWritesTheCounters :
    (∀ x ∈ [ask base (req 5#8 [4#8, 1#8, 110#8, 23#8, 59#8, 59#8]) .setClock,
        ask base (req 5#8 [3#8, 1#8, 110#8, 23#8, 59#8, 59#8]) .setClock,
        ask (owing true true true) (req 5#8 [4#8, 1#8, 110#8, 23#8, 59#8, 59#8]) .setClock,
        ask clockBehindMinute (req 5#8 [4#8, 1#8, 110#8, 23#8, 59#8, 59#8]) .setClock], Asks x)
    ∧ (reqArgs (req 5#8 [4#8, 1#8, 110#8, 23#8, 59#8, 59#8])).length = 6
      ∧ (readClock (reqArgs (req 5#8 [4#8, 1#8, 110#8, 23#8, 59#8, 59#8]))).valid = true
      ∧ (asking base (req 5#8 [4#8, 1#8, 110#8, 23#8, 59#8, 59#8])).minuteOwed = false
      ∧ base.portD.own.length + base.portD.reserved + 2 ≤ 32
      ∧ ((owing true true true).beforeTaking (req 5#8 [4#8, 1#8, 110#8, 23#8, 59#8, 59#8])).ownRoom = true
      ∧ (clockBehindMinute.beforeTaking (req 5#8 [4#8, 1#8, 110#8, 23#8, 59#8, 59#8])).ownRoom = false
      ∧ clockBehindMinute.minuteOwed = true ∧ clockBehindMinute.minuteDue.balance.length ≤ 6
      ∧ (readClock (reqArgs (req 5#8 [3#8, 1#8, 110#8, 23#8, 59#8, 59#8]))).valid = false :=
  ⟨asks_all (by decide), by decide +kernel⟩

theorem witness_GateRequestsEndHolds :
    (∀ x ∈ [ask base (req 7#8 [48#8]) .resumeGate, ask base (req 7#8 [47#8]) .resumeGate,
        ask (inState 3 (.hold .stall)) (req 7#8 [3#8]) .resumeGate,
        ask base (req 8#8 [48#8, 0#8, 0#8]) .forceGate, ask base (req 8#8 [3#8, 3#8, 233#8]) .forceGate,
        ask (inState 3 (.hold .silence)) (req 8#8 [3#8, 3#8, 232#8]) .forceGate], Asks x)
    ∧ reqArgs (req 7#8 [48#8]) = [48#8] ∧ 47 < (48#8 : Byte).toNat ∧ (47#8 : Byte).toNat = (47 : Gate).1
      ∧ (base.chan 47).state ≠ .hold .stall ∧ ((inState 3 (.hold .stall)).chan 3).state = .hold .stall
      ∧ (inState 3 (.hold .stall)).active.gangOf 3 = none ∧ (inState 3 (.hold .stall)).hasWork 3 = false
      ∧ (reqArgs (req 8#8 [48#8, 0#8, 0#8])).length = 3 ∧ 47 < byteAt (reqArgs (req 8#8 [48#8, 0#8, 0#8])) 0
      ∧ byteAt (reqArgs (req 8#8 [3#8, 3#8, 233#8])) 0 = (3 : Gate).1 ∧ (base.chan 3).state ≠ .hold .stall
      ∧ (base.chan 3).state ≠ .hold .silence ∧ 1000 < fieldAt (reqArgs (req 8#8 [3#8, 3#8, 233#8])) 1 2
      ∧ ((inState 3 (.hold .silence)).chan 3).state = .hold .silence :=
  ⟨asks_all (by decide), by decide⟩

theorem witness_SetMemberOutChangesTheMark :
    (∀ x ∈ [ask base (req 9#8 [48#8, 1#8]) .setMemberOut, ask base (req 9#8 [1#8, 2#8]) .setMemberOut,
        ask base (req 9#8 [3#8, 1#8]) .setMemberOut,
        ask (stepping false false .up) (req 9#8 [1#8, 1#8]) .setMemberOut,
        ask base (req 9#8 [1#8, 0#8]) .setMemberOut, ask base (req 9#8 [1#8, 1#8]) .setMemberOut,
        ask ((inState 1 (.hold .gang)).setGang 0 { base.gang 0 with holder := some 1 })
          (req 9#8 [1#8, 1#8]) .setMemberOut], Asks x)
    ∧ reqArgs (req 9#8 [48#8, 1#8]) = [48#8, 1#8] ∧ 47 < (48#8 : Byte).toNat ∧ 1 < (2#8 : Byte).toNat
      ∧ (3#8 : Byte).toNat = (3 : Gate).1 ∧ (1#8 : Byte).toNat = true.toNat ∧ base.active.gangOf 3 = none
      ∧ (stepping false false .up).active.gangOf 1 = some 0 ∧ ((stepping false false .up).gang 0).holder = some 1
      ∧ ((stepping false false .up).chan 1).state.isStep = true ∧ (0#8 : Byte).toNat = false.toNat
      ∧ (base.gang 0).isOut 1 = false ∧ (base.gang 0).isOut 1 ≠ true ∧ (base.gang 0).holder ≠ some 1
      ∧ (((inState 1 (.hold .gang)).setGang 0 { base.gang 0 with holder := some 1 }).chan 1).state = .hold .gang :=
  ⟨asks_all (by decide), by decide⟩

theorem witness_ReachMarksAndCountsRequests :
    (∀ x ∈ [ask base (req 10#8 [5#8]) .reseedReach, ask base (req 10#8 [4#8]) .reseedReach,
        ask base (req 10#8 [0#8]) .reseedReach, ask base (req 11#8 [6#8]) .readMarks,
        ask base (req 11#8 [5#8]) .readMarks, ask base (req 11#8 [0#8]) .readMarks,
        ask base (req 16#8 [0#8]) .readCounts, ask base (req 16#8 [1#8]) .readCounts,
        ask base (req 16#8 [2#8]) .readCounts], Asks x)
    ∧ reqArgs (req 10#8 [5#8]) = [5#8] ∧ 4 < (5#8 : Byte).toNat ∧ (4#8 : Byte).toNat = (4 : ReachId).1
      ∧ (base.reachEntry 4).isPresent = false ∧ (base.reachEntry 0).isPresent = true ∧ 5 < (6#8 : Byte).toNat
      ∧ (base.stationEntry 5).isPresent = false ∧ (base.stationEntry 0).isPresent = true ∧ 1 < (2#8 : Byte).toNat :=
  ⟨asks_all (by decide), by decide⟩

theorem witness_SnapshotAndSamplerRequests :
    (∀ x ∈ [ask base (req 12#8 []) .snapshot, ask base (req 13#8 [6#8]) .readSnapshot,
        ask base (req 13#8 [112#8]) .readSnapshot,
        ask (base.setReport { base.report with snapshot := some base.capture }) (req 13#8 [112#8]) .readSnapshot,
        ask base (req 14#8 [0#8, 3#8]) .setSampler], Asks x)
    ∧ reqArgs (req 12#8 []) = [] ∧ (base.stationEntry 2).isPresent = false
      ∧ pageExists ((6#8 : Byte).toNat / 16) ((6#8 : Byte).toNat % 16) = false ∧ pageExists 0 5 = true
      ∧ pageExists 6 1 = true ∧ pageExists 6 2 = false ∧ pageExists 7 0 = true ∧ pageExists 8 0 = false
      ∧ base.report.snapshot = none
      ∧ (base.setReport { base.report with snapshot := some base.capture }).report.snapshot = some base.capture
      ∧ (reqArgs (req 14#8 [0#8, 3#8])).length = 2 :=
  ⟨asks_all (by decide), by decide⟩

/-- A trace record to be read. -/
def record : TraceRecord :=
  { trace := traceOf 3, ended := { day := 1, second := 9 }, cause := .reached, endState := 2 }

theorem witness_ReadTraceReturnsTheRecord :
    (∀ x ∈ [ask base (req 15#8 []) .readTrace,
        ask (base.setSampler { base.report.sampler with record := some record, interval := 3 })
          (req 15#8 []) .readTrace], Asks x)
    ∧ reqArgs (req 15#8 []) = [] ∧ base.report.sampler.record = none
      ∧ (base.setSampler { base.report.sampler with record := some record, interval := 3 }).report.sampler.record = some record
      ∧ 0 < (base.setSampler
        { base.report.sampler with record := some record, interval := 3 }).report.sampler.interval :=
  ⟨asks_all (by decide), by decide⟩

/-- The base state, with a minute's work owed and its command at the front of the queue. -/
def queued : State := { owing true true true with pending := [.modelMinute .whole] }

/-- A settled state of the plan's own meets every invariant, and its next step answers a next state. -/
theorem witness_invariants :
    StoreSound queued ∧ (QueuesFit queued ∧ ClockSound queued) ∧ LinesSound queued ∧ SilenceSound queued
      ∧ BindingSound queued
      ∧ OpeningsSound queued ∧ ∃ t, step queued = .next t := by
  have hs : StoreSound queued := storeSound_base
  refine ⟨hs, ⟨?_, ?_⟩, ⟨hs, fun k => ?_⟩, fun k => ?_, fun g => ?_, openingsSound_base, ?_⟩
  · unfold QueuesFit
    decide
  · unfold ClockSound
    decide
  · unfold LineSound
    revert k
    decide
  · unfold SilenceFits
    revert k
    intro k
    match k with
    | 0 => rw [if_pos (by decide)]; show (20 : Nat) ≤ 20; decide
    | 1 => rw [if_neg (by decide)]; decide
    | 2 => rw [if_neg (by decide)]; decide
    | 3 => rw [if_neg (by decide)]; decide
    | 4 => rw [if_neg (by decide)]; decide
    | 5 => rw [if_neg (by decide)]; decide
  · revert g
    decide
  · exact ⟨_, rfl⟩

end Sys2Proof.Tests
end

section
/-! How a minute of outflow is appended to a reach line (R66, R67): one equation per form of the line, then one lemma per case
of R66. -/

namespace Sys2Proof.Machine

/-- An empty line has no youngest parcel to extend or to fold into. -/
theorem appendMinute_nil (q : Nat) : appendMinute [] q = ([{ flow := q, minutes := 1 }], false) := rfl

/-- The three cases of R66 in their order, for a line whose youngest parcel is `y`. -/
theorem appendMinute_concat (older : List Parcel) (y : Parcel) (q : Nat) :
    appendMinute (older ++ [y]) q =
      if y.flow = q ∧ y.minutes < 1440 then (older ++ [{ flow := y.flow, minutes := y.minutes + 1 }], false)
      else if (older ++ [y]).length < 96 then (older ++ [y] ++ [{ flow := q, minutes := 1 }], false)
      else (older ++ [{ flow := (y.flow * y.minutes + q) / (y.minutes + 1), minutes := y.minutes + 1 }], true) := by
  unfold appendMinute
  rw [List.getLast?_concat, List.dropLast_concat]
  rfl

/-- Case 1 of R66: the youngest parcel has the flow of the minute and room for it, whatever the length of the line. -/
theorem appendMinute_extends {older : List Parcel} {y : Parcel} {q : Nat} (hflow : y.flow = q) (hroom : y.minutes < 1440) :
    appendMinute (older ++ [y]) q = (older ++ [{ flow := y.flow, minutes := y.minutes + 1 }], false) := by
  rw [appendMinute_concat, if_pos ⟨hflow, hroom⟩]

/-- Case 2 of R66: where no youngest parcel takes the minute, a line below its cap gets a new parcel. -/
theorem appendMinute_adds {line : List Parcel} {q : Nat}
    (hbar : ∀ (older : List Parcel) (y : Parcel), line = older ++ [y] → ¬ (y.flow = q ∧ y.minutes < 1440))
    (hcap : line.length < 96) : appendMinute line q = (line ++ [{ flow := q, minutes := 1 }], false) := by
  obtain rfl | ⟨older, y, rfl⟩ := List.eq_nil_or_concat' line
  · exact appendMinute_nil q
  · rw [appendMinute_concat, if_neg (hbar older y rfl), if_pos hcap]

/-- Case 3 of R66, with the flow of R67: a full line whose youngest parcel cannot be extended. -/
theorem appendMinute_folds {older : List Parcel} {y : Parcel} {q : Nat} (hbar : ¬ (y.flow = q ∧ y.minutes < 1440))
    (hfull : 96 ≤ (older ++ [y]).length) :
    appendMinute (older ++ [y]) q
      = (older ++ [{ flow := (y.flow * y.minutes + q) / (y.minutes + 1), minutes := y.minutes + 1 }], true) := by
  rw [appendMinute_concat, if_neg hbar, if_neg (Nat.not_lt.mpr hfull)]

/-- Settles O39: the three clauses are the three cases of R66. -/
theorem appendTakesTheFirstCaseThatApplies : Obligations.AppendTakesTheFirstCaseThatApplies := by
  intro line q
  refine ⟨?extended, appendMinute_adds, ?folded⟩
  case extended =>
    rintro older y rfl hflow hroom
    exact appendMinute_extends hflow hroom
  case folded =>
    rintro older y rfl hbar hfull
    exact appendMinute_folds hbar hfull

end Sys2Proof.Machine
end

section
/-! The window clamp between its bounds (R108): its target, and its mark by one lemma per outcome, as the rule's table lists
them. No lemma asks that the bounds do not cross. -/

namespace Sys2Proof.Machine

/-- Raised to `lo`, then lowered to `hi`. -/
theorem clampTo_target (r lo hi : Nat) (unreachable ranged : Bool) :
    (clampTo r lo hi unreachable ranged).1 = min (max r lo) hi := rfl

/-- A request that the clamp lowers. -/
theorem clampTo_mark_of_lowered {r lo hi : Nat} {unreachable ranged : Bool}
    (hlow : (clampTo r lo hi unreachable ranged).1 < r) : (clampTo r lo hi unreachable ranged).2 = .capMax :=
  if_pos hlow

/-- A request that the clamp raises: the mark of the lower inverse decides. -/
theorem clampTo_mark_of_raised {r lo hi : Nat} {unreachable ranged : Bool}
    (hhigh : r < (clampTo r lo hi unreachable ranged).1) :
    (clampTo r lo hi unreachable ranged).2 = if unreachable then .unreachableMin else .capMin :=
  (if_neg (Nat.lt_asymm hhigh)).trans (if_pos hhigh)

/-- A request that the clamp leaves in its place: the range mark of R105 decides. -/
theorem clampTo_mark_of_kept {r lo hi : Nat} {unreachable ranged : Bool}
    (hkept : (clampTo r lo hi unreachable ranged).1 = r) :
    (clampTo r lo hi unreachable ranged).2 = if ranged then .range else .none :=
  (if_neg hkept.not_lt).trans (if_neg hkept.not_gt)

/-- Settles O18: the target of R108, and its table of marks read by how the target stands to the request. -/
theorem windowClampTargetAndMark : Obligations.WindowClampTargetAndMark := by
  intro r lo hi unreachable ranged t mark hclamp
  obtain ⟨rfl, rfl⟩ := Prod.mk.inj hclamp
  refine ⟨clampTo_target r lo hi unreachable ranged, clampTo_mark_of_lowered, ?unreachable, ?raised, ?ranged, ?kept⟩
  case unreachable =>
    rintro hhigh rfl
    exact clampTo_mark_of_raised hhigh
  case raised =>
    rintro hhigh rfl
    exact clampTo_mark_of_raised hhigh
  case ranged =>
    rintro hkept rfl
    exact clampTo_mark_of_kept hkept
  case kept =>
    rintro hkept rfl
    exact clampTo_mark_of_kept hkept

end Sys2Proof.Machine
end

section
/-! What the gang machinery does to channels and what it leaves, said once. A property that survives each of the moves the rules of
sections 1.4 and 5.3 to 5.5 make (`Turns`) is kept by every event of a gang. -/

namespace Sys2Proof.Machine

/-- A channel after it entered a state. -/
def Channel.inState (c : Channel) (st : ChanState) : Channel :=
  { c with state := st, silencePending := c.silencePending && st.isStep }

/-- Entering a state writes that channel and, on leaving IDLE, the wait lists. -/
theorem enter_eq (s : State) (g : Gate) (st : ChanState) :
    s.enter g st = if st = .idle then s.setChan g ((s.chan g).inState st)
      else (s.setChan g ((s.chan g).inState st)).leaveWaits g := rfl

@[simp] theorem enter_chan_self (s : State) (g : Gate) (st : ChanState) : (s.enter g st).chan g = (s.chan g).inState st := by
  rw [enter_eq]
  split <;> simp [State.leaveWaits]

@[simp] theorem enter_chan_ne (s : State) {g h : Gate} (st : ChanState) (hne : h ≠ g) : (s.enter g st).chan h = s.chan h := by
  rw [enter_eq]
  split <;> simp [State.leaveWaits, chan_setChan_ne _ _ hne]

theorem enter_chan (s : State) (g h : Gate) (st : ChanState) :
    (s.enter g st).chan h = if h = g then (s.chan g).inState st else s.chan h := by
  by_cases hg : h = g
  · subst hg; simp
  · simp [hg]

/-- A property that the moves of the gang machinery keep: the writes of gangs and wait lists, notices, the start of an increment, the entry into and the leaving of a gang's hold, and the end of a dwell. -/
structure Turns (P : State → Prop) : Prop where
  gang : ∀ s c r, P s → P (s.setGang c r)
  waits : ∀ s u r, P s → P (s.setPortF { s.portF with waitUrgent := u, waitRoutine := r })
  notice : ∀ s kind subject d v, P s → P (s.notify kind subject d v)
  start : ∀ s g target, s.workTarget g = some target → s.mayStart g = true → s.portF.room (s.queueFor g) = true → P s →
    P (s.startIncrement g target (s.queueFor g))
  hold : ∀ s g, (s.chan g).state = .idle ∨ (s.chan g).state.isDwell = true ∨ (s.chan g).state = .hold .gang → P s →
    P (s.enter g (.hold .gang))
  wake : ∀ s g, (s.chan g).state.isDwell = true → P s → P (s.enter g .idle)
  free : ∀ s g, (s.chan g).state = .hold .gang → P s → P (s.enter g (s.afterGangHold g))

/-- A property that the moves of the gang machinery and the writes of the report keep. -/
structure Moves (P : State → Prop) : Prop extends Turns P where
  report : ∀ s r, P s → P (s.setReport r)

section moves

variable {P : State → Prop} (q : Moves P) {s : State}

include q

theorem Moves.setSampler (m : Sampler) (h : P s) : P (s.setSampler m) := q.report _ _ h

theorem Moves.endTrace (c : EndCause) (h : P s) : P (s.endTrace c) := by
  unfold State.endTrace
  split
  · exact h
  · exact q.setSampler _ h

/-- The end of an event settles the wait lists and may end the trace. -/
theorem Moves.finish (h : P s) : P s.finish := by
  have h1 := q.waits s s.portF.waitUrgent.settle s.portF.waitRoutine.settle h
  unfold State.finish
  simp only
  split
  · exact h1
  · split
    case h_6 =>
      split
      · exact h1
      · exact q.endTrace _ h1
    case h_7 => exact h1
    case h_8 => exact h1
    all_goals exact q.endTrace _ h1

end moves

section turns

variable {P : State → Prop} (q : Turns P) {s : State}

include q

theorem Turns.leaveWaits (g : Gate) (h : P s) : P (s.leaveWaits g) := q.waits _ _ _ h

theorem Turns.joinWait (g : Gate) (w : FieldQueue) (h : P s) : P (s.joinWait g w) := by
  cases w <;> exact q.waits _ _ _ h

theorem Turns.judge (g : Gate) (h : P s) : P (s.judge g) := by
  unfold State.judge
  split
  · next target hw =>
    split
    · next hm =>
      split
      · next hr => exact q.start _ _ _ hw hm hr h
      · exact q.joinWait _ _ h
    · exact q.leaveWaits _ h
  · exact q.leaveWaits _ h

/-- Members in IDLE or DWELL, each named any number of times, enter the gang's hold. -/
theorem Turns.holdAll (ms : List Gate)
    (hm : ∀ m ∈ ms, (s.chan m).state = .idle ∨ (s.chan m).state.isDwell = true ∨ (s.chan m).state = .hold .gang) (h : P s) :
    P (forEach ms (fun m s => s.enter m (.hold .gang)) s) := by
  induction ms generalizing s with
  | nil => exact h
  | cons m ms ih =>
    refine ih (s := s.enter m (.hold .gang)) (fun x hx => ?_) (q.hold _ _ (hm m (List.mem_cons_self ..)) h)
    rw [enter_chan]
    split
    · exact .inr (.inr rfl)
    · exact hm x (List.mem_cons_of_mem _ hx)

omit q in
/-- The members a gang hold moves are in IDLE or DWELL. -/
theorem holdable_state {c : GangId} {m : Gate} (h : m ∈ s.holdable c) :
    (s.chan m).state = .idle ∨ (s.chan m).state.isDwell = true ∨ (s.chan m).state = .hold .gang := by
  unfold State.holdable at h
  have h := (List.mem_filter.mp h).2
  simp only [Bool.and_eq_true, Bool.or_eq_true, beq_iff_eq] at h
  rcases h.2 with h | h
  · exact .inl h
  · exact .inr (.inl h)

theorem Turns.becomeHeld (c : GangId) (b : Gate) (quiet : Bool) (h : P s) : P (s.becomeHeld c b quiet) := by
  unfold State.becomeHeld
  simp only
  generalize hg : s.setGang c _ = s1
  have hc : s1.chan = s.chan := by rw [← hg]; rfl
  have h1 : P s1 := hg ▸ q.gang _ _ _ h
  have h2 : P (forEach (s.holdable c) (fun m s => s.enter m (.hold .gang)) s1) :=
    q.holdAll _ (fun m hm => by rw [hc]; exact holdable_state hm) h1
  have h3 : P (forEach (match (s.gang c).dwell with
      | some d => if ((s.gang c).isOut d.member && (s.chan d.member).state.isDwell) = true then [d.member] else []
      | none => []) (fun m s => s.enter m .idle) (forEach (s.holdable c) (fun m s => s.enter m (.hold .gang)) s1)) := by
    split
    · next d _ =>
      split
      · next hd =>
        simp only [Bool.and_eq_true] at hd
        refine q.wake _ _ ?_ h2
        have hkeep : ∀ (ms : List Gate) (t : State), d.member ∉ ms →
            (forEach ms (fun m s => s.enter m (.hold .gang)) t).chan d.member = t.chan d.member := by
          intro ms
          induction ms with
          | nil => exact fun _ _ => rfl
          | cons m ms ih =>
            intro t hn
            rw [List.mem_cons, not_or] at hn
            exact (ih _ hn.2).trans (enter_chan_ne _ _ hn.1)
        rw [hkeep, hc]
        · exact hd.2
        · intro hm
          unfold State.holdable at hm
          have := (List.mem_filter.mp hm).2
          rw [hd.1] at this
          simp at this
      · exact h2
    · exact h2
  split
  · exact h3
  · exact q.notice _ _ _ _ _ h3

theorem Turns.freeMembers (ms : List Gate) (h : P s) : P (s.freeMembers ms) := by
  unfold State.freeMembers
  refine forEach_preserves (fun m t ht => ?_) ms s h
  split
  · next hm => exact q.free _ _ hm ht
  · exact ht

theorem Turns.releaseGang (c : GangId) (m : Gate) (h : P s) : P (s.releaseGang c m) :=
  q.notice _ _ _ _ _ (q.freeMembers _ (q.gang _ _ _ h))

theorem Turns.judgeHold (c : GangId) (m : Gate) (h : P s) : P (s.judgeHold c m) := by
  unfold State.judgeHold
  split
  · exact q.becomeHeld _ _ _ h
  · exact h
  · exact q.releaseGang _ _ h
  · exact q.holdAll _ (fun m hm => holdable_state hm) h

theorem Turns.checkDwell (c : GangId) (h : P s) : P (s.checkDwell c) := by
  unfold State.checkDwell
  split
  · split
    · exact h
    · exact q.gang _ _ _ h
  · exact h

theorem Turns.checkTurn (c : GangId) (k : GangCause) (m : Option Gate) (h : P s) : P (s.checkTurn c k m) := by
  unfold State.checkTurn
  split
  · split
    · exact h
    · exact q.leaveWaits _ (q.gang _ _ _ h)
  · exact h

theorem Turns.scan (c : GangId) (m : Option Gate) (h : P s) : P (s.scan c m) := by
  unfold State.scan
  split
  · exact q.judge _ (q.gang _ _ _ h)
  · split
    · split
      · exact q.judge _ h
      · exact h
    · exact h

theorem Turns.gangEvent (c : GangId) (k : GangCause) (m : Gate) (h : P s) : P (s.gangEvent c k m) := by
  unfold State.gangEvent
  split
  · exact q.scan _ _ (q.checkTurn _ _ _ (q.checkDwell _ (q.judgeHold _ _ h)))
  · exact h

theorem Turns.gangReview (k : GangCause) (c : GangId) (h : P s) : P (s.gangReview k c) := by
  unfold State.gangReview
  split
  · exact q.scan _ _ (q.checkTurn _ _ _ (q.checkDwell _ (q.judgeHold _ _ h)))
  · exact h

theorem Turns.gangReviews (k : GangCause) (cs : List GangId) (h : P s) : P (s.gangReviews k cs) :=
  forEach_preserves (fun c _ ht => q.gangReview k c ht) cs s h

theorem Turns.chanEvent (k : GangCause) (g : Gate) (h : P s) : P (s.chanEvent k g) := by
  unfold State.chanEvent
  split
  · exact q.judge _ h
  · exact q.gangEvent _ _ _ h

theorem Turns.surchargeReviews (k : StationId) (st : Stage) (h : P s) : P (s.surchargeReviews k st) := by
  unfold State.surchargeReviews
  split
  · exact q.gangReviews _ _ h
  · exact h

theorem Turns.startGang (c : GangId) (h : P s) : P (s.startGang c) := by
  unfold State.startGang
  simp only
  split
  · exact q.becomeHeld _ _ _ (q.gang _ _ _ h)
  · exact q.gang _ _ _ h

theorem Turns.dissolveGang (ms : List Gate) (c : GangId) (h : P s) : P (s.dissolveGang ms c) := by
  unfold State.dissolveGang
  refine q.freeMembers _ ?_
  split
  · exact q.leaveWaits _ h
  · exact h

theorem Turns.commitGang (old : Plan) (c : GangId) (h : P s) : P (s.commitGang old c) := by
  unfold State.commitGang
  simp only
  split
  · split
    · exact h
    · exact q.startGang _ (q.dissolveGang _ _ h)
  · split
    · exact q.startGang _ h
    · split
      · exact q.gang _ _ _ (q.dissolveGang _ _ h)
      · exact h

/-- A gang dwell's end wakes its member and has the gang take its event. -/
theorem Turns.gangDwellExpires (c : GangId) (h : P s) : P (s.gangDwellExpires c) := by
  unfold State.gangDwellExpires
  split
  · split
    · simp only
      refine q.gangEvent _ _ _ ?_
      split
      · next hd => exact q.wake _ _ hd (q.gang _ _ _ h)
      · exact q.gang _ _ _ h
    · exact h
  · exact h

theorem Turns.changeOut (c : GangId) (g : Gate) (v : Bool) (h : P s) : P (s.changeOut c g v) := by
  unfold State.changeOut
  refine q.gangEvent _ _ _ ?_
  split
  · exact q.freeMembers _ (q.gang _ _ _ h)
  · exact q.gang _ _ _ h

/-- A channel's own dwell that ends wakes it. -/
theorem Turns.dwellExpires (g : Gate) (h : P s) : P (s.dwellExpires g) := by
  unfold State.dwellExpires
  split
  · next hd => exact q.chanEvent _ _ (q.wake _ _ (by rw [hd]; rfl) h)
  · exact h

end turns

end Sys2Proof.Machine
end

section
/-! How a property is carried through a command: `Sturdy` lists the operations a command is built of, and every command keeps a
property that each of them keeps. The two resets and the pins of the field, which bring new values in, stand beside it. -/

namespace Sys2Proof.Machine

/-- A property that what the events of a command do to the blocks keeps. -/
structure Events (P : State → Prop) : Prop where
  finish : ∀ s : State, P s → P s.finish
  due : ∀ (s : State) e, P s → P (s.takeDue e)
  tick : ∀ s : State, P s → P s.tick
  first : ∀ (s : State) k, P s → P (s.firstSilence k)
  second : ∀ (s : State) k, P s → P (s.secondSilence k)
  written : ∀ s : State, P s → P s.retainedWritten
  judge : ∀ (s : State) g, P s → P (s.judge g)
  countD : ∀ (s : State) f, P s → P (s.countD f)
  countF : ∀ (s : State) f, P s → P (s.countF f)
  pass : ∀ (s : State) f, P s → P (s.passToField f)
  forward : ∀ (s : State) f, P s → P (s.forwardUp f)
  setpoint : ∀ (s : State) g f, P s → P (s.judgeSetpoint g f)
  keepalive : ∀ (s : State) i k, P s → P (s.takeKeepalive i k)
  inflow : ∀ (s : State) i k f, P s → P (s.takeInflow i k f)
  position : ∀ (s : State) g o f, P s → P (s.takePosition g o f)
  gauge : ∀ (s : State) g l y, P s → P (s.takeGauge g l y)
  freeF : ∀ s : State, P s → P (s.setPortF { s.portF with sending := none })
  freeD : ∀ s : State, P s → P (s.setPortD { s.portD with sending := none })

/-- A property that every operation of a command keeps, but for the resets by pin and FIELD_READY: the events, the beginnings of
transmissions, and the Responder's taking of requests. -/
structure Sturdy (P : State → Prop) : Prop extends Events P where
  told : ∀ (s : State) b, P s → P { s with told := b }
  beginD : ∀ s : State, P s → P s.beginD
  beginF : ∀ (s : State) claim, P s → P (s.beginF claim)
  respond : ∀ (s : State) p ps, s.inbox = p :: ps → s.ownRoom = true → P s → P (s.respond p)
  inbox : ∀ (s : State) p, s.inbox.length < 4 → P s → P { s with inbox := s.inbox ++ [p] }

section events

variable {P : State → Prop} (q : Events P) {s : State}

include q

theorem Events.receiveSetpoint (dest : Byte) (p : List Byte) (h : P s) : P (s.receiveSetpoint dest p) := by
  have hc := q.countD s PortCounts.addReceived h
  unfold State.receiveSetpoint State.takeSetpoint
  simp only
  split
  · exact q.countD _ _ h
  · split
    · split
      · exact q.countD _ _ hc
      · split
        · exact q.pass _ _ hc
        · exact q.setpoint _ _ _ hc
    · exact q.countD _ _ hc

theorem Events.receiveKeepalive (p : List Byte) (h : P s) : P (s.receiveKeepalive p) := by
  have hc := q.countD s PortCounts.addReceived h
  unfold State.receiveKeepalive
  split
  · exact q.countD _ _ h
  · split
    · exact q.keepalive _ _ _ hc
    · exact q.countD _ _ hc

theorem Events.receiveInflow (p : List Byte) (h : P s) : P (s.receiveInflow p) := by
  have hc := q.countD s PortCounts.addReceived h
  unfold State.receiveInflow
  split
  · exact q.countD _ _ h
  · split
    · exact q.inflow _ _ _ _ hc
    · exact q.countD _ _ hc

theorem Events.receiveDamaged (port : Port) (bytes : List Byte) (marked : Bool) (h : P s) :
    P (s.receiveDamaged port bytes marked) := by
  unfold State.receiveDamaged
  split
  · cases port
    · exact q.countD _ _ h
    · exact q.countF _ _ h
  · exact h

theorem Events.receivePass (f : LineFrame) (h : P s) : P (s.receivePass f) := by
  unfold State.receivePass
  split
  · exact q.countD _ _ h
  · split
    · exact h
    · exact q.pass _ _ (q.countD _ _ h)

theorem Events.receiveForward (f : LineFrame) (h : P s) : P (s.receiveForward f) := by
  unfold State.receiveForward
  split
  · exact q.countF _ _ h
  · split
    · exact h
    · exact q.forward _ _ (q.countF _ _ h)

theorem Events.receivePosition (dest : Byte) (p : List Byte) (h : P s) : P (s.receivePosition dest p) := by
  have hc := q.countF s PortCounts.addReceived h
  unfold State.receivePosition State.tapPosition
  split
  · refine q.forward _ _ ?_
    split
    · split
      · exact q.position _ _ _ _ hc
      · exact hc
    · exact q.countF _ _ hc
  · exact q.countF _ _ h

theorem Events.receiveGauge (dest : Byte) (p : List Byte) (h : P s) : P (s.receiveGauge dest p) := by
  have hc := q.countF s PortCounts.addReceived h
  unfold State.receiveGauge State.tapGauge
  split
  · refine q.forward _ _ ?_
    split
    · split
      · exact q.gauge _ _ _ _ hc
      · exact hc
    · exact q.countF _ _ hc
  · exact q.countF _ _ h

end events

/-- The command is one event, of operations that `Events` lists. -/
def IsEvent (c : Instr) : Prop :=
  ∃ f : State → State, (∀ s, exec c s = s.event f) ∧ ∀ P, Events P → ∀ t, P t → P (f t)

/-- The commands that are one event. -/
theorem isEvent_of_due {c : Instr} {f : State → State} (e : DueEvent) (hc : ∀ s, exec c s = s.event f) (hf : ∀ t, f t = t.takeDue e) :
    IsEvent c := ⟨f, hc, fun P q t ht => by rw [hf]; exact q.due t e ht⟩

theorem isEvent_positionStale (g : Gate) : IsEvent (.positionStale g) :=
  isEvent_of_due (.positionStale g) (fun _ => rfl) fun _ => rfl
theorem isEvent_stepTimeout (g : Gate) : IsEvent (.stepTimeout g) :=
  isEvent_of_due (.stepTimeout g) (fun _ => rfl) fun _ => rfl
theorem isEvent_dwellExpiry (g : Gate) : IsEvent (.dwellExpiry g) :=
  isEvent_of_due (.dwellExpiry g) (fun _ => rfl) fun _ => rfl
theorem isEvent_gangDwellExpiry (c : GangId) : IsEvent (.gangDwellExpiry c) :=
  isEvent_of_due (.gangDwellExpiry c) (fun _ => rfl) fun _ => rfl
theorem isEvent_gaugeStale (k : StationId) (role : GaugeRole) : IsEvent (.gaugeStale k role) :=
  isEvent_of_due (.gaugeStale k role) (fun _ => rfl) fun _ => rfl
theorem isEvent_firstSilenceExpiry (k : StationId) : IsEvent (.firstSilenceExpiry k) :=
  ⟨_, fun _ => rfl, fun _ q t => q.first t k⟩
theorem isEvent_secondSilenceExpiry (k : StationId) : IsEvent (.secondSilenceExpiry k) :=
  ⟨_, fun _ => rfl, fun _ q t => q.second t k⟩
theorem isEvent_retainedWriteComplete : IsEvent .retainedWriteComplete := ⟨_, fun _ => rfl, fun _ q => q.written⟩
theorem isEvent_damagedFrame (port : Port) (bytes : List Byte) (marked : Bool) : IsEvent (.damagedFrame port bytes marked) :=
  ⟨_, fun _ => rfl, fun _ q _ => q.receiveDamaged _ _ _⟩
theorem isEvent_setpoint (d : Byte) (p : List Byte) : IsEvent (.setpoint d p) :=
  ⟨_, fun _ => rfl, fun _ q _ => q.receiveSetpoint _ _⟩
theorem isEvent_keepalive (d : Byte) (p : List Byte) : IsEvent (.keepalive d p) :=
  ⟨_, fun _ => rfl, fun _ q _ => q.receiveKeepalive _⟩
theorem isEvent_inflow (d : Byte) (p : List Byte) : IsEvent (.inflow d p) :=
  ⟨_, fun _ => rfl, fun _ q _ => q.receiveInflow _⟩
theorem isEvent_dispatchFramePass (f : LineFrame) : IsEvent (.dispatchFramePass f) :=
  ⟨_, fun _ => rfl, fun _ q _ => q.receivePass _⟩
theorem isEvent_position (d : Byte) (p : List Byte) : IsEvent (.position d p) :=
  ⟨_, fun _ => rfl, fun _ q _ => q.receivePosition _ _⟩
theorem isEvent_gauge (d : Byte) (p : List Byte) : IsEvent (.gauge d p) :=
  ⟨_, fun _ => rfl, fun _ q _ => q.receiveGauge _ _⟩
theorem isEvent_fieldFrameForward (f : LineFrame) : IsEvent (.fieldFrameForward f) :=
  ⟨_, fun _ => rfl, fun _ q _ => q.receiveForward _⟩
theorem isEvent_incrementStart (g : Gate) : IsEvent (.incrementStart g) := ⟨_, fun _ => rfl, fun _ q t => q.judge t g⟩
theorem isEvent_portFTxEnd : IsEvent .portFTxEnd := ⟨_, fun _ => rfl, fun _ q => q.freeF⟩
theorem isEvent_portDTxEnd : IsEvent .portDTxEnd := ⟨_, fun _ => rfl, fun _ q => q.freeD⟩

/-- The kinds of commands: the resets and FIELD_READY, the commands of time, one event, the arrival of a request, the two beginnings,
and the row of a request. -/
inductive Kind : Instr → Prop where
  | powerOn (x : Byte) : Kind (.powerOnReset x)
  | external (x : Byte) : Kind (.externalReset x)
  | asserted : Kind .fieldReadyAsserted
  | deasserted : Kind .fieldReadyDeasserted
  | second : Kind .secondTick
  | minute (part : MinutePart) : Kind (.modelMinute part)
  | event {c : Instr} (h : IsEvent c) : Kind c
  | request (dest : Byte) (p : List Byte) : Kind (.mgmtReq dest p)
  | beginF (claim : Claim) : Kind (.portFTxBegin claim)
  | beginD (first : FirstTaker) : Kind (.portDTxBegin first)
  | row {c : Instr} (row : Request → Bool) (h : ∀ s, exec c s = s.row row) : Kind c

theorem kind_of (c : Instr) : Kind c := by
  cases c with
  | powerOnReset x => exact .powerOn x
  | externalReset x => exact .external x
  | fieldReadyAsserted => exact .asserted
  | fieldReadyDeasserted => exact .deasserted
  | secondTick => exact .second
  | modelMinute part => exact .minute part
  | positionStale g => exact .event (isEvent_positionStale g)
  | stepTimeout g => exact .event (isEvent_stepTimeout g)
  | dwellExpiry g => exact .event (isEvent_dwellExpiry g)
  | gangDwellExpiry g => exact .event (isEvent_gangDwellExpiry g)
  | gaugeStale k role => exact .event (isEvent_gaugeStale k role)
  | firstSilenceExpiry k => exact .event (isEvent_firstSilenceExpiry k)
  | secondSilenceExpiry k => exact .event (isEvent_secondSilenceExpiry k)
  | retainedWriteComplete => exact .event isEvent_retainedWriteComplete
  | damagedFrame port bytes marked => exact .event (isEvent_damagedFrame port bytes marked)
  | setpoint d p => exact .event (isEvent_setpoint d p)
  | keepalive d p => exact .event (isEvent_keepalive d p)
  | inflow d p => exact .event (isEvent_inflow d p)
  | mgmtReq d p => exact .request d p
  | dispatchFramePass f => exact .event (isEvent_dispatchFramePass f)
  | position d p => exact .event (isEvent_position d p)
  | gauge d p => exact .event (isEvent_gauge d p)
  | fieldFrameForward f => exact .event (isEvent_fieldFrameForward f)
  | incrementStart g => exact .event (isEvent_incrementStart g)
  | portFTxBegin claim => exact .beginF claim
  | portFTxEnd => exact .event isEvent_portFTxEnd
  | portDTxBegin first => exact .beginD first
  | portDTxEnd => exact .event isEvent_portDTxEnd
  | _ => exact .row _ fun _ => rfl

section sturdy

variable {P : State → Prop} (q : Sturdy P) {s : State}

include q

theorem Sturdy.beginsF (h : P s) : P s.beginsF := by
  unfold State.beginsF
  split
  · exact q.finish _ (q.beginF _ _ h)
  · exact h

theorem Sturdy.onLines (h : P s) : P s.onLines := q.beginsF (q.beginD _ h)

theorem Sturdy.beforeTaking (p : List Byte) (h : P s) : P (s.beforeTaking p) := by
  unfold State.beforeTaking
  split
  · refine q.onLines (s := s.takeEach _ _) ?_
    exact takeEach_preserves (P := P) (fun e t ht _ => q.finish _ (q.due _ e (q.onLines ht))) _ h
  · exact h

theorem Sturdy.betweenRequests (h : P s) : P s.betweenRequests := by
  unfold State.betweenRequests
  split
  · exact h
  · exact q.onLines h

omit q in
/-- The work of a minute taken first leaves the inbox. -/
theorem beforeTaking_inbox (s : State) (p : List Byte) : (s.beforeTaking p).inbox = s.inbox := by
  unfold State.beforeTaking
  split
  · refine (lined_inbox.onLines _).trans ?_
    exact takeEach_preserves (P := fun t => t.inbox = s.inbox) (fun e t ht _ =>
      (calm_inbox.finish _).trans ((calm_inbox.takeDue _ e).trans ((lined_inbox.onLines t).trans ht))) _ rfl
  · rfl

theorem Sturdy.serve (n : Nat) (h : P s) : P (State.serve n s) := by
  induction n generalizing s with
  | zero => exact h
  | succ n ih =>
    unfold State.serve
    split
    · exact h
    · next p ps hp =>
      have hb := q.beforeTaking p h
      simp only
      split
      · next hr => exact ih (q.betweenRequests (q.respond _ _ _ ((beforeTaking_inbox s p).trans hp) hr hb))
      · exact hb

theorem Sturdy.hear (h : P s) : P s.hear := by
  unfold State.hear
  split
  · exact q.serve _ (q.told _ _ h)
  · exact h

theorem Sturdy.beginAndTell (first : FirstTaker) (h : P s) : P (s.beginAndTell first) := by
  have hb := q.beginD _ h
  unfold State.beginAndTell
  simp only
  split
  · cases first
    · exact q.serve _ (q.told _ _ hb)
    · exact q.told _ _ hb
  · exact hb

theorem Sturdy.beginsD (h : P s) : P s.beginsD := by
  unfold State.beginsD
  split
  · exact q.finish _ (q.beginAndTell _ h)
  · exact h

theorem Sturdy.begun (h : P s) : P s.begun := q.beginsF (q.beginsD (q.beginsD h))

theorem Sturdy.takeEvent {f : State → State} (hf : ∀ t, P t → P (f t)) (h : P s) : P (s.takeEvent f) := by
  unfold State.takeEvent
  split
  · have ht := q.finish _ (hf _ (q.told _ false h))
    simp only
    split
    · exact q.serve _ ht
    · exact q.finish _ (hf _ (q.begun (q.hear h)))
  · exact q.finish _ (hf _ h)

theorem Sturdy.event {f : State → State} (hf : ∀ t, P t → P (f t)) (h : P s) : ∃ t, s.event f = .next t ∧ P t :=
  ⟨_, rfl, q.takeEvent hf (q.begun h)⟩

theorem Sturdy.runWaiting {f : State → State} (hf : ∀ t, P t → P (f t)) (h : P s) : P (s.runWaiting f) := by
  have ht := q.finish _ (hf _ (q.begun h))
  unfold State.runWaiting
  simp only
  split
  · exact q.serve _ (q.told _ _ ht)
  · exact ht

theorem Sturdy.takeAll (es : List DueEvent) (h : P s) : P (s.takeAll es) := by
  have hw : ∀ t, P t → P (t.takeEach State.runWaiting es) := fun t ht =>
    takeEach_preserves (fun e t ht _ => q.runWaiting (fun u hu => q.due u e hu) ht) _ ht
  unfold State.takeAll
  simp only
  split
  · exact hw _ (q.begun (q.hear h))
  · exact hw _ h

theorem Sturdy.row (row : Request → Bool) (h : P s) : ∃ t, s.row row = .next t ∧ P t := by
  refine ⟨_, rfl, q.finish _ ?_⟩
  have hb := q.begun h
  unfold State.serveRow
  split
  · exact hb
  · split
    · exact q.serve _ hb
    · exact hb

theorem Sturdy.takeRequestFrame (p : List Byte) (h : P s) : P (s.takeRequestFrame p) := by
  unfold State.takeRequestFrame
  split
  · exact q.countD _ _ h
  · next hn => exact q.serve _ (q.inbox _ _ (Nat.lt_of_not_le (not_or.mp hn).2) h)

theorem Sturdy.receiveRequest (dest : Byte) (p : List Byte) (h : P s) : P (s.receiveRequest dest p) := by
  unfold State.receiveRequest
  simp only
  split
  · exact q.countD _ _ h
  · split
    · exact q.takeRequestFrame _ (q.countD _ _ h)
    · exact q.pass _ _ (q.countD _ _ h)

/-- Every command but the resets by pin and FIELD_READY keeps the property. -/
theorem Sturdy.exec_other (c : Instr) (hr : ∀ x, c ≠ .powerOnReset x ∧ c ≠ .externalReset x) (ha : c ≠ .fieldReadyAsserted)
    (hd : c ≠ .fieldReadyDeasserted) (h : P s) : ∃ t, exec c s = .next t ∧ P t := by
  cases kind_of c with
  | powerOn x => exact absurd rfl (hr x).1
  | external x => exact absurd rfl (hr x).2
  | asserted => exact absurd rfl ha
  | deasserted => exact absurd rfl hd
  | second => exact q.event q.tick (q.takeAll _ (q.begun h))
  | minute part => exact ⟨_, rfl, q.finish _ (q.takeAll _ (q.begun h))⟩
  | event he =>
    obtain ⟨f, he, hf⟩ := he
    exact he s ▸ q.event (hf P q.toEvents) h
  | request d p => exact ⟨_, rfl, q.finish _ (q.receiveRequest _ _ (q.begun (q.hear (q.begun h))))⟩
  | beginF claim => exact ⟨_, rfl, q.hear (q.finish _ (q.beginF _ _ h))⟩
  | beginD first => exact ⟨_, rfl, q.finish _ (q.beginAndTell _ h)⟩
  | row row hrow => exact hrow s ▸ q.row row h

/-- Every command keeps a property that the resets by pin and FIELD_READY keep too. -/
theorem Sturdy.exec (hp : ∀ (t : State) b, P t → P { t with fieldReady := b })
    (hon : ∀ (t : State) x, P t →
      P (({ t with straps := x, clock := Clock.powerOn, prescaler := 0, minuteDue := MinuteDue.none } : State).resetAll .powerOn))
    (hext : ∀ (t : State) x, P t → P (({ t with straps := x } : State).resetAll .external)) (c : Instr) (h : P s) :
    ∃ t, exec c s = .next t ∧ P t := by
  by_cases hr : ∀ x, c ≠ .powerOnReset x ∧ c ≠ .externalReset x
  · by_cases ha : c = .fieldReadyAsserted
    · exact ha ▸ q.event (fun t ht => hp t _ ht) h
    · by_cases hd : c = .fieldReadyDeasserted
      · exact hd ▸ q.event (fun t ht => hp t _ ht) h
      · exact q.exec_other c hr ha hd h
  · simp only [not_forall, not_and_or, not_not] at hr
    obtain ⟨x, rfl | rfl⟩ := hr
    · exact ⟨_, rfl, q.finish _ (hon _ x h)⟩
    · exact ⟨_, rfl, q.finish _ (hext _ x h)⟩

/-- What every command keeps, every step keeps, when the queue of commands does not matter to it. -/
theorem Sturdy.step (hp : ∀ (t : State) b, P t → P { t with fieldReady := b })
    (hon : ∀ (t : State) x, P t →
      P (({ t with straps := x, clock := Clock.powerOn, prescaler := 0, minuteDue := MinuteDue.none } : State).resetAll .powerOn))
    (hext : ∀ (t : State) x, P t → P (({ t with straps := x } : State).resetAll .external))
    (hq : ∀ (t : State) rest, P t → P (t.withQueue rest)) {t : State} (h : P s) (hs : step s = .next t) : P t := by
  unfold Machine.step at hs
  split at hs
  · cases hs
    exact h
  · next c rest _ =>
    obtain ⟨u, hu, hP⟩ := q.exec hp hon hext c (hq s rest h)
    rw [hu] at hs
    cases hs
    exact hP

end sturdy

end Sys2Proof.Machine
end

section
/-! Invariants of the blocks' records. A property of the channels, the reach lines and the Plan Store that keeps to `Writes` survives the
few writes the rules make of them; when a COMMIT keeps it too (`Steady`), every operation of a command does (`Steady.sturdy`). `Good` is what the property asks of
an opening that a channel takes. -/

namespace Sys2Proof.Machine

/-- What a request, a load run or the end of the retained write may change in the Plan Store: PENDING, the run within its range, and
the end of a write. -/
structure StoreMoves (old new : PlanStore) : Prop where
  active : new.active = old.active
  retained : new.retained.plan = old.retained.plan
  writing : new.writing = true → old.writing = true ∧ new.retained.agrees = old.retained.agrees
  run : (∀ n, old.run = some n → 1 ≤ n ∧ n ≤ 1024) → ∀ n, new.run = some n → 1 ≤ n ∧ n ≤ 1024

/-- A property of the channels, the reach lines and the Plan Store that the writes of a command keep. -/
structure Writes (Good : Nat → Prop) (P : State → Prop) : Prop where
  frame : ∀ s t : State, t.chans = s.chans → t.reaches = s.reaches → t.store = s.store → P s → P t
  start : ∀ s g target, s.workTarget g = some target → P s → P (s.startIncrement g target (s.queueFor g))
  enter : ∀ s g st, (s.chan g).state ≠ .unbound → st ≠ .unbound → st.stepTarget = none → P s → P (s.enter g st)
  given : ∀ s g o src mark pend, (s.chan g).state ≠ .unbound → Good o → P s →
    P (s.setChan g ((s.chan g).given (some o) src mark pend))
  placed : ∀ s g o, (s.chan g).state ≠ .unbound → Good o → P s → P (s.setChan g ((s.chan g).withPosition o))
  marked : ∀ s g c, c.state = (s.chan g).state → c.measured = (s.chan g).measured → c.governed = (s.chan g).governed →
    c.start = (s.chan g).start → P s → P (s.setChan g c)
  ticked : ∀ s : State, P s → P s.tick
  advance : ∀ s k, (s.reachEntry k).isPresent = true → (s.reach k).unseeded = false → ∀ f, P s → P (s.advanceLine k f)
  reseed : ∀ s k f c, (s.reachEntry k).isPresent = true → P s → P (s.reseed k f c)
  store : ∀ s r, StoreMoves s.store r → P s → P (s.setStore r)
  reset : ∀ s : State, ∀ kind, P s → P (s.resetAll kind)
  full : ∀ o, Good (min o 1000)
  zero : Good 0
  clamped : ∀ s k g o b, P s → Good o → Good (s.windowClamp k g o b).1
  filled : ∀ s c m f head z, P s → m ∈ s.members c → toFin? 12 (s.gateEntry m).surface = some f →
    Good (lowerInverse (s.active.surfaces.get f) head z).1
  fallback : ∀ s g o, P s → s.active.bound g = true → (s.gateEntry g).fallback? = some o → Good o
  sched : ∀ s n, P s → (s.active.sched.get n).isPresent = true → Good (s.active.sched.get n).opening

/-- A notice changes neither channels, reaches nor the Plan Store. -/
theorem notify_chans (s : State) (kind : NoticeKind) (subject : Subject) (d v : Nat) :
    (s.notify kind subject d v).chans = s.chans := by
  unfold State.notify
  split <;> rfl

/-- A channel that takes a request is bound. -/
theorem takes_ne_unbound {st : ChanState} (h : st.takes = true) : st ≠ .unbound := by
  rintro rfl
  cases h

/-- A channel's record with the request written (R17), a silence hold ended in IDLE (R18). -/
def State.requested (s : State) (g : Gate) (o : Nat) (src : Source) (mark : ClampMark) : State :=
  if (s.chan g).state = .hold .silence then (s.setChan g ((s.chan g).given (some o) src mark false)).enter g .idle
  else s.setChan g ((s.chan g).given (some o) src mark false)

/-- A request: written, a trace of the channel superseded, and the channel's event. -/
theorem takeRequest_eq (s : State) (g : Gate) (o : Nat) (src : Source) (mark : ClampMark) :
    s.takeRequest g o src mark = if (s.chan g).state.takes then
      (if (s.requested g o src mark).traces g then (s.requested g o src mark).endTrace .superseded
        else s.requested g o src mark).chanEvent .request g
    else s := rfl

/-- A channel with a forced target in IDLE (R23). -/
def State.forced (s : State) (g : Gate) (o : Nat) : State :=
  (s.setChan g ((s.chan g).given (some (min o 1000)) .force (if 1000 < o then .range else .none) false)).enter g .idle

/-- A forced target: written, a trace of the channel superseded, and the channel's event. -/
theorem force_eq (s : State) (g : Gate) (o : Nat) :
    s.force g o = (if (s.forced g o).traces g then (s.forced g o).endTrace .superseded
      else s.forced g o).chanEvent .request g := rfl

/-- The part of a COMMIT behind the channels, stations and reaches (R163): gangs, their scans, silence records, armed marks. -/
def State.planTail (s : State) (old : Plan) : State :=
  let s := forEach (allFin 8) (fun c s => s.commitGang old c) s
  let s := s.gangReviews .other (Plan.gangList s.active)
  let s := forEach (allFin 6) (fun k s => s.commitSilence old k) s
  { s with armed := Tab.gen fun n => (s.active.sched.get n).isPresent }

/-- A COMMIT in its parts (R163). -/
theorem takePlan_eq (s : State) (old : Plan) :
    s.takePlan old = (forEach (allFin 5) (fun k s => s.commitReach old k)
      ((forEach (allFin 48) (fun g s => s.commitChannel old g) s).commitStations old)).planTail old := rfl

section writes

variable {Good : Nat → Prop} {P : State → Prop} (q : Writes Good P) {s : State}

include q

theorem Writes.notify (kind : NoticeKind) (subject : Subject) (d v : Nat) (h : P s) : P (s.notify kind subject d v) :=
  q.frame s _ (notify_chans ..) (quiet_reaches.notify ..) (quiet_store.notify ..) h

/-- The gang machinery keeps the property. -/
theorem Writes.moves : Moves P where
  gang s _ _ h := q.frame s _ rfl rfl rfl h
  waits s _ _ h := q.frame s _ rfl rfl rfl h
  report s _ h := q.frame s _ rfl rfl rfl h
  notice _ _ _ _ _ h := q.notify _ _ _ _ h
  start s g target hw _ _ h := q.start s g target hw h
  hold s g hst h := q.enter s g _ (by rcases hst with hst | hst | hst <;> intro hu <;> rw [hu] at hst <;> cases hst) nofun rfl h
  wake s g hst h := q.enter s g _ (fun hu => by rw [hu] at hst; cases hst) nofun rfl h
  free s g hst h := by
    have hu : (s.chan g).state ≠ .unbound := by rw [hst]; nofun
    unfold State.afterGangHold
    split
    · exact q.enter s g _ hu nofun rfl h
    · exact q.enter s g _ hu nofun rfl h

theorem Writes.takeRequest (g : Gate) (o : Nat) (src : Source) (mark : ClampMark) (ho : Good o) (h : P s) :
    P (s.takeRequest g o src mark) := by
  rw [takeRequest_eq]
  split
  · next ht =>
    have h1 := q.given s g o src mark false (takes_ne_unbound ht) ho h
    have h2 : P (s.requested g o src mark) := by
      unfold State.requested
      split
      · exact q.enter _ g _ (by rw [chan_setChan_self]; exact takes_ne_unbound ht) nofun rfl h1
      · exact h1
    refine q.moves.chanEvent _ _ ?_
    split
    · exact q.moves.endTrace _ h2
    · exact h2
  · exact h

theorem Writes.clampAndTake (k : StationId) (g : Gate) (o : Nat) (src : Source) (ho : Good o) (h : P s) :
    P (s.clampAndTake k g o src) := by
  have hr := q.takeRequest g _ src (s.windowClamp k g o false).2 (q.clamped s k g o false h ho) h
  unfold State.clampAndTake State.notifyClamp
  simp only
  split
  · exact hr
  · exact q.notify _ _ _ _ hr

theorem Writes.fillFrom (c : GangId) (head : Nat) (ms : List Gate) (left raised : Nat) (hm : ∀ m ∈ ms, m ∈ s.members c)
    (h : P s) : P (s.fillFrom c head ms left raised).1 := by
  induction ms generalizing s left raised with
  | nil => exact h
  | cons m ms ih =>
    unfold State.fillFrom
    simp only
    split
    · refine ih _ _ (fun x hx => ?_) (q.takeRequest m _ _ _ ?_ h)
      · have ha := quiet_active.takeRequest s m
        unfold State.members
        rw [ha]
        exact hm x (List.mem_cons_of_mem _ hx)
      · split
        · next f hf => exact q.filled s c m f head _ h (hm m (List.mem_cons_self ..)) hf
        · exact q.zero
    · exact ih _ _ (fun x hx => hm x (List.mem_cons_of_mem _ hx)) h

theorem Writes.takeTrip (g : Gate) (former : Option Nat) (h : P s) : P (s.takeTrip g former) := by
  unfold State.takeTrip
  split
  · exact h
  · split
    · simp only
      split
      · exact q.notify _ _ _ _ (q.fillFrom _ _ _ _ _ (fun _ hm => hm) h)
      · exact h
    · exact h

theorem Writes.takeSchedule (n gate o : Nat) (ho : Good o) (h : P s) : P (s.takeSchedule n gate o) := by
  unfold State.takeSchedule
  split
  · exact q.notify _ _ _ _ h
  · split
    · exact q.notify _ _ _ _ h
    · exact q.clampAndTake _ _ _ _ ho h
    · exact h

theorem Writes.giveFallback (k : StationId) (l : List (Gate × Nat)) (n : Nat) (hl : ∀ x ∈ l, Good x.2) (h : P s) :
    P (s.giveFallback k l n).1 := by
  induction l generalizing s n with
  | nil => exact h
  | cons x l ih =>
    obtain ⟨g, t⟩ := x
    unfold State.giveFallback
    exact ih _ (fun y hy => hl y (List.mem_cons_of_mem _ hy))
      (q.clampAndTake _ _ _ _ (hl (g, t) (List.mem_cons_self ..)) h)

theorem Writes.positionClear (g : Gate) (b : Channel) (o : Nat) (hu : (s.chan g).state ≠ .unbound) (ho : Good o) (h : P s) :
    P (s.positionClear g b o) := by
  have hback : P ((s.setChan g { s.chan g with governed := some o, source := .none, clamp := .none }).enter g .idle) :=
    q.enter _ g _ (by rw [chan_setChan_self]; exact hu) nofun rfl (q.given s g o .none .none (s.chan g).silencePending hu ho h)
  have hin : ∀ (c : GangId) (r : Gang) st, st ≠ .unbound → st.stepTarget = none → P ((s.setGang c r).enter g st) :=
    fun c r st h1 h2 => q.enter (s.setGang c r) g st hu h1 h2 (q.frame s _ rfl rfl rfl h)
  unfold State.positionClear
  simp only
  split
  · exact h
  · split
    · exact q.notify _ _ _ _ hback
    · exact hback
  · exact q.notify _ _ _ _ hback
  · exact q.notify _ _ _ _ hback
  · split
    · unfold State.confirm State.confirmMember
      simp only
      split
      · split
        · exact hin _ _ _ nofun rfl
        · split
          · exact hin _ _ _ nofun rfl
          · split
            · exact hin _ _ _ nofun rfl
            · exact hin _ _ _ nofun rfl
      · split
        · exact q.enter s g _ hu nofun rfl h
        · split
          · exact q.enter s g _ hu nofun rfl h
          · exact q.enter s g _ hu nofun rfl h
    · exact h
  · exact h
  · exact h
  · exact h

theorem Writes.positionFault (g : Gate) (b : Channel) (o : Nat) (hu : (s.chan g).state ≠ .unbound) (h : P s) :
    P (s.positionFault g b o) := by
  unfold State.positionFault
  split
  · exact h
  · exact q.notify _ _ _ _ (q.enter s g _ hu nofun rfl h)

theorem Writes.positionTrip (g : Gate) (b : Channel) (o : Nat) (hu : (s.chan g).state ≠ .unbound) (ho : Good o) (h : P s) :
    P (s.positionTrip g b o) := by
  have h1 := q.given s g o (s.chan g).source (s.chan g).clamp (s.chan g).silencePending hu ho h
  unfold State.positionTrip
  simp only
  split
  · split
    · exact h1
    · exact q.takeTrip _ _ (q.notify _ _ _ _ (q.enter _ g _ (by rw [chan_setChan_self]; exact hu) nofun rfl h1))
  · exact q.positionFault _ _ _ hu h

theorem Writes.takePosition (g : Gate) (o : Nat) (flags : Byte) (h : P s) : P (s.takePosition g o flags) := by
  unfold State.takePosition
  simp only
  split
  · exact h
  · next hu =>
    have h1 := q.placed s g _ hu (q.full o) h
    have hu1 : ((s.setChan g ((s.chan g).withPosition (min o 1000))).chan g).state ≠ .unbound := by
      rw [chan_setChan_self]
      exact hu
    refine q.moves.chanEvent _ _ ?_
    split
    · exact q.positionClear _ _ _ hu1 (q.full o) h1
    · unfold State.positionLocal
      split
      · exact h1
      · exact q.notify _ _ _ _ (q.enter _ g _ hu1 nofun rfl h1)
    · exact q.positionFault _ _ _ hu1 h1
    · exact q.positionTrip _ _ _ hu1 (q.full o) h1

theorem Writes.positionGoesStale (g : Gate) (h : P s) : P (s.positionGoesStale g) := by
  unfold State.positionGoesStale
  simp only
  split
  · next hd =>
    have hu : (s.chan g).state ≠ .unbound := by
      simp only [Bool.and_eq_true, bne_iff_ne] at hd
      exact hd.2
    have h1 : P (s.setChan g { s.chan g with stale := true, staleDue := false }) := q.marked s g _ rfl rfl rfl rfl h
    refine q.moves.chanEvent _ _ (q.notify _ _ _ _ ?_)
    split
    · exact h1
    · exact q.enter _ g _ (by rw [chan_setChan_self]; exact hu) nofun rfl h1
  · exact h

theorem Writes.stepTimesOut (g : Gate) (h : P s) : P (s.stepTimesOut g) := by
  unfold State.stepTimesOut
  simp only
  split
  · next hst => exact q.moves.chanEvent _ _ (q.notify _ _ _ _ (q.enter s g _ (by rw [hst]; nofun) nofun rfl h))
  · exact h

theorem Writes.station (k : StationId) (r : Station) (h : P s) : P (s.setStation k r) := q.frame s _ rfl rfl rfl h

theorem Writes.silence (k : StationId) (r : SilenceRec) (h : P s) : P (s.setSilence k r) := q.frame s _ rfl rfl rfl h

theorem Writes.captureCrossing (k : StationId) (i : Fin 2) (r : Bool) (l : Nat) (h : P s) : P (s.captureCrossing k i r l) := by
  unfold State.captureCrossing
  simp only
  have h1 := fun m kind subject d v => q.notify kind subject d v (q.station k m h)
  split
  · split
    · exact q.notify _ _ _ _ (q.station _ _ (h1 _ _ _ _ _))
    · exact h1 _ _ _ _ _
  · exact h1 _ _ _ _ _

theorem Writes.judgeMark (k : StationId) (p : Option Nat) (l : Nat) (i : Fin 2) (h : P s) : P (s.judgeMark k p l i) := by
  unfold State.judgeMark
  simp only
  split
  · exact h
  · split
    · exact q.captureCrossing _ _ _ _ h
    · split
      · exact q.captureCrossing _ _ _ _ h
      · exact h

theorem Writes.takeGauge (g l y : Nat) (h : P s) : P (s.takeGauge g l y) := by
  unfold State.takeGauge
  split
  · exact h
  · split
    · unfold State.takeHeadwater
      refine q.moves.surchargeReviews _ _ (q.judgeMark _ _ _ _ (q.judgeMark _ _ _ _ (q.station _ _ ?_)))
      split
      · exact q.notify _ _ _ _ (q.station _ _ h)
      · exact q.station _ _ h
    · split
      · unfold State.takeTailwater
        simp only
        split
        · exact q.notify _ _ _ _ (q.station _ _ h)
        · exact q.station _ _ h
      · exact h

theorem Writes.gaugeGoesStale (k : StationId) (role : GaugeRole) (h : P s) : P (s.gaugeGoesStale k role) := by
  unfold State.gaugeGoesStale
  simp only
  split
  · exact q.notify _ _ _ _ (q.station _ _ h)
  · exact h

theorem Writes.balanceEvent (k : StationId) (a x : Nat) (h : P s) : P (s.balanceEvent k a x) := by
  unfold State.balanceEvent
  simp only
  split
  · split
    · refine q.moves.surchargeReviews _ _ ?_
      split
      · exact q.notify _ _ _ _ (q.station _ _ h)
      · exact q.station _ _ h
    · exact q.station _ _ h
  · exact h

theorem Writes.deliver (k : ReachId) (h : P s) : P (s.deliver k) := by
  unfold State.deliver State.reachMinute
  simp only
  split
  · next hp =>
    refine q.balanceEvent _ _ _ ?_
    split
    · split
      · exact q.reseed _ _ _ _ hp h
      · exact h
    · next hu => exact q.advance _ _ hp (by simpa using hu) _ h
  · exact h

theorem Writes.leaveSilenceHold (g : Gate) (hu : (s.chan g).state ≠ .unbound) (h : P s) : P (s.leaveSilenceHold g) := by
  have h1 := q.enter s g .idle hu nofun rfl h
  unfold State.leaveSilenceHold
  simp only
  split
  · exact q.moves.judge _ h1
  · exact h1

omit q in
/-- A channel that is in a state stays out of UNBOUND through another channel's leaving of a silence hold. -/
theorem leaveSilenceHold_bound (g h : Gate) (hb : (s.chan h).state ≠ .unbound) :
    ((s.leaveSilenceHold g).chan h).state ≠ .unbound := by
  have h1 : ((s.enter g .idle).chan h).state ≠ .unbound := by
    rw [enter_chan]
    split
    · nofun
    · exact hb
  have hm : Moves fun t => (t.chan h).state ≠ .unbound :=
    { gang := fun _ _ _ h => h, waits := fun _ _ _ h => h, report := fun _ _ h => h
      notice := fun s _ _ _ _ h => by unfold State.chan at h ⊢; rwa [notify_chans]
      start := fun s g target _ _ _ h => by
        unfold State.startIncrement State.noteEnqueued
        simp only
        split
        · split
          all_goals
            simp only [chan_setSampler, chan_setPortF]
            rw [enter_chan]
            split
            · nofun
            · next hne => rwa [chan_setChan_ne _ _ hne]
        · simp only [chan_setPortF]
          rw [enter_chan]
          split
          · nofun
          · next hne => rwa [chan_setChan_ne _ _ hne]
      hold := fun s g _ h => by rw [enter_chan]; split; nofun; exact h
      wake := fun s g _ h => by rw [enter_chan]; split; nofun; exact h
      free := fun s g _ h => by
        rw [enter_chan]
        split
        · unfold State.afterGangHold
          split <;> nofun
        · exact h }
  unfold State.leaveSilenceHold
  simp only
  split
  · exact hm.judge g h1
  · exact h1

theorem Writes.resumeStation (k : StationId) (t : Option Nat) (c : ResumeCause) (h : P s) : P (s.resumeStation k t c) := by
  have hheld : ∀ (gs : List Gate) (u : State), (∀ g ∈ gs, (u.chan g).state ≠ .unbound) → P u →
      P (forEach gs (fun g s => s.leaveSilenceHold g) u) := by
    intro gs
    induction gs with
    | nil => exact fun u _ hu => hu
    | cons g gs ih =>
      intro u hb hu
      exact ih _ (fun x hx => leaveSilenceHold_bound g x (hb x (List.mem_cons_of_mem _ hx)))
        (q.leaveSilenceHold g (hb g (List.mem_cons_self ..)) hu)
  unfold State.resumeStation
  refine q.moves.gangReviews _ _ (q.notify _ _ _ _ ?_)
  refine forEach_preserves (P := P) (fun g t ht => ?source) _ _ (forEach_preserves (P := P) (fun g t ht => ?pending) _ _ ?held)
  case source => exact q.marked t g _ rfl rfl rfl rfl ht
  case pending => exact q.marked t g _ rfl rfl rfl rfl ht
  refine hheld _ _ (fun g hg => ?_) (q.silence _ _ h)
  have hg := (List.mem_filter.mp hg).2
  rw [beq_iff_eq] at hg
  rw [chan_setSilence, hg]
  nofun

theorem Writes.restartSilence (k : StationId) (h : P s) : P (s.restartSilence k) := by
  unfold State.restartSilence
  split
  · exact q.silence _ _ h
  · exact h

theorem Writes.activity (k : StationId) (h : P s) : P (s.activity k) := by
  unfold State.activity
  split
  · exact q.restartSilence _ h
  · exact q.resumeStation _ _ _ h
  · exact h

theorem Writes.silenceChannel (g : Gate) (h : P s) : P (s.silenceChannel g) := by
  unfold State.silenceChannel
  split
  · next hst => exact q.enter s g _ (by rw [hst]; nofun) nofun rfl h
  · next hst => exact q.enter s g _ (by rw [hst]; nofun) nofun rfl h
  · exact q.marked s g _ rfl rfl rfl rfl h
  · exact h

theorem Writes.firstSilence (k : StationId) (h : P s) : P (s.firstSilence k) := by
  unfold State.firstSilence
  simp only
  split
  · refine q.moves.gangReviews _ _ (q.notify _ _ _ _ (q.silence _ _ ?_))
    exact forEach_preserves (fun g _ ht => q.silenceChannel g ht) _ _ h
  · exact h

theorem Writes.secondSilence (k : StationId) (h : P s) : P (s.secondSilence k) := by
  unfold State.secondSilence
  simp only
  split
  · refine q.notify _ _ _ _ (q.giveFallback _ _ _ (fun x hx => ?_) (q.silence _ _ h))
    obtain ⟨g, hg, hx⟩ := List.mem_filterMap.mp hx
    split at hx
    · obtain ⟨t, ht, rfl⟩ := Option.map_eq_some_iff.mp hx
      have hb := (List.mem_filter.mp hg).2
      simp only [Plan.boundTo, Bool.and_eq_true] at hb
      exact q.fallback s g t h hb.1 ht
    · cases hx
  · exact h

theorem Writes.fire (n : Fin 32) (h : P s) : P (s.fire n) := by
  unfold State.fire
  simp only
  split
  · next hm =>
    refine q.takeSchedule _ _ _ (q.sched s n h ?_) (q.notify _ _ _ _ ?_)
    · simp only [scheduleMatches, Bool.and_eq_true] at hm
      exact hm.2.1.1.1
    · unfold State.disarm
      split
      · exact q.frame s _ rfl rfl rfl h
      · exact h
  · exact h

theorem Writes.due (u : State) (d : MinuteDue) (h : P u) : P { u with minuteDue := d } := q.frame u _ rfl rfl rfl h

theorem Writes.takeDue (e : DueEvent) (h : P s) : P (s.takeDue e) := by
  cases e with
  | positionStale g => exact q.positionGoesStale _ h
  | stepTimeout g => exact q.stepTimesOut _ h
  | dwellExpiry g => exact q.moves.dwellExpires _ h
  | gangDwellExpiry c => exact q.moves.gangDwellExpires _ h
  | gaugeStale k role => exact q.gaugeGoesStale _ _ h
  | silence k =>
    show P (if (s.silenceOf k).level = .l0 then s.firstSilence k else s.secondSilence k)
    split
    · exact q.firstSilence _ h
    · exact q.secondSilence _ h
  | outflow =>
    show P s.minuteOutflow
    unfold State.minuteOutflow
    split
    · refine q.due (forEach (allFin 6) (fun k s => s.outflowEvent k) s) _ ?_
      refine forEach_preserves (P := P) (fun k t ht => ?_) _ _ h
      unfold State.outflowEvent
      split
      · exact q.station _ _ ht
      · exact ht
    · exact h
  | balance =>
    show P s.minuteBalance
    unfold State.minuteBalance State.stationMinute
    split
    · exact h
    · split
      · exact q.balanceEvent _ _ _ (q.frame s _ rfl rfl rfl h)
      · exact q.deliver _ (q.frame s _ rfl rfl rfl h)
  | schedule =>
    show P s.minuteSchedule
    unfold State.minuteSchedule State.scheduleEvent
    split
    · exact forEach_preserves (fun n _ ht => q.fire n ht) _ _ (q.frame s _ rfl rfl rfl h)
    · exact h

theorem Writes.judgeSetpoint (g : Gate) (f : SetpointFields) (h : P s) : P (s.judgeSetpoint g f) := by
  unfold State.judgeSetpoint
  split
  · exact q.notify _ _ _ _ (q.frame s _ rfl rfl rfl h)
  · next k _ _ =>
    have ho : Good (s.setpointTarget k g f).1 := by
      unfold State.setpointTarget
      simp only
      split
      · exact q.full _
      · exact q.clamped _ _ _ _ _ h (q.full _)
    have h2 := q.activity k (q.takeRequest g _ .dispatch (s.setpointTarget k g f).2 ho h)
    have h3 : ∀ t m w e, P (((s.takeRequest g (s.setpointTarget k g f).1 .dispatch (s.setpointTarget k g f).2).activity k).sample
        k g f t m w e) := by
      intro t m w e
      unfold State.sample
      simp only
      split
      · exact h2
      · split <;> exact q.moves.setSampler _ h2
    unfold State.admitSetpoint State.notifyClamp
    simp only
    split
    · exact h3 _ _ _ _
    · exact q.notify _ _ _ _ (h3 _ _ _ _)
  · exact h

theorem Writes.takeKeepalive (i k : Nat) (h : P s) : P (s.takeKeepalive i k) := by
  unfold State.takeKeepalive
  split
  · exact q.notify _ _ _ _ (q.frame s _ rfl rfl rfl h)
  · exact q.activity _ h

theorem Writes.takeInflow (i k f : Nat) (h : P s) : P (s.takeInflow i k f) := by
  unfold State.takeInflow
  split
  · exact q.notify _ _ _ _ (q.frame s _ rfl rfl rfl h)
  · exact q.station _ _ h

theorem Writes.force (g : Gate) (o : Nat) (hu : (s.chan g).state ≠ .unbound) (h : P s) : P (s.force g o) := by
  have h1 : P (s.forced g o) := q.enter _ g _ (by rw [chan_setChan_self]; exact hu) nofun rfl
    (q.given s g _ .force (if 1000 < o then .range else .none) false hu (q.full o) h)
  rw [force_eq]
  refine q.moves.chanEvent _ _ ?_
  split
  · exact q.moves.endTrace _ h1
  · exact h1

theorem Writes.armed (u : State) (a : Tab 32 Bool) (h : P u) : P { u with armed := a } := q.frame u _ rfl rfl rfl h

/-- What follows the reaches in a COMMIT: gangs, their scans, silence records and armed marks (R163). -/
theorem Writes.planTail (old : Plan) (h : P s) : P (s.planTail old) := by
  have hs : ∀ k t, P t → P (t.commitSilence old k) := by
    intro k t ht
    unfold State.commitSilence
    simp only
    split
    · split
      · exact q.silence _ _ ht
      · split
        · exact q.silence _ _ ht
        · exact q.resumeStation _ _ _ ht
    · split
      · exact q.silence _ _ ht
      · split
        · split
          · exact q.silence _ _ ht
          · exact q.notify _ _ _ _ (q.silence _ _ ht)
        · exact ht
  have h1 := forEach_preserves (P := P) (fun c _ ht => q.moves.commitGang old c ht) (allFin 8) s h
  have h2 := forEach_preserves (P := P) hs (allFin 6) _ (q.moves.gangReviews .other (Plan.gangList
    (forEach (allFin 8) (fun c s => s.commitGang old c) s).active) h1)
  exact q.armed _ _ h2

end writes

/-- A property that a COMMIT keeps too. -/
structure Steady (Good : Nat → Prop) (P : State → Prop) : Prop extends Writes Good P where
  commit : ∀ s : State, s.store.run = none → s.store.planPending.fault = none → P s → P s.commitPlan

section steady

variable {Good : Nat → Prop} {P : State → Prop} (q : Steady Good P) {s : State}

include q

/-- A request, carried out or refused by its own rule. -/
theorem Steady.handle (r : Request) (args : List Byte) (h : P s) : P (s.handle r args).state := by
  cases r with
  | badKind => exact h
  | readEntry => exact (handleReadEntry_state s args).symm ▸ h
  | check => exact (handleCheck_state s).symm ▸ h
  | readCounts => exact (handleReadCounts_state s args).symm ▸ h
  | restart => exact (handleRestart_state s args).symm ▸ h
  | abandon => exact q.store s _ ⟨rfl, rfl, fun hw => ⟨hw, rfl⟩, fun _ n hn => by cases hn⟩ h
  | abandonCopy => exact q.store s _ ⟨rfl, rfl, fun hw => ⟨hw, rfl⟩, fun _ n hn => by cases hn⟩ h
  | copy =>
    show P (s.handleCopy).state
    unfold State.handleCopy
    split
    · exact h
    · exact q.store s _ ⟨rfl, rfl, fun hw => ⟨hw, rfl⟩, fun hn => hn⟩ h
  | openLoad =>
    show P (s.handleOpenLoad args).state
    unfold State.handleOpenLoad
    split
    · next ha =>
      split
      · exact h
      · exact q.store s _ ⟨rfl, rfl, fun hw => ⟨hw, rfl⟩, fun _ n hn => by cases hn; exact ha.2⟩ h
    · exact h
  | writeEntry =>
    show P (s.handleWriteEntry args).state
    unfold State.handleWriteEntry
    split
    · exact h
    · split
      · split
        · exact h
        · next n hn =>
          refine q.store s _ ⟨rfl, rfl, fun hw => ⟨hw, rfl⟩, fun hb m hm => ?_⟩ h
          have hn := hb n hn
          simp only [runAfter] at hm
          split at hm
          · cases hm
          · cases hm
            omega
      · exact h
  | commit =>
    show P (s.handleCommit).state
    unfold State.handleCommit
    split
    · exact h
    · next hr =>
      split
      · exact h
      · split
        · exact h
        · next hf =>
          split
          · exact h
          · exact q.commit s (by simpa using hr) hf h
  | setClock =>
    show P (s.handleSetClock args).state
    unfold State.handleSetClock
    split
    · exact q.notify _ _ _ _ (q.frame s _ rfl rfl rfl h)
    · exact h
  | resumeStation =>
    show P (s.handleResumeStation args).state
    unfold State.handleResumeStation
    split
    · exact h
    · split
      · split
        · exact q.restartSilence _ h
        · exact q.resumeStation _ _ _ h
        · exact q.resumeStation _ _ _ h
      · exact h
  | resumeGate =>
    show P (s.handleResumeGate args).state
    unfold State.handleResumeGate
    split
    · exact h
    · next g _ =>
      split
      · next hst => exact q.moves.chanEvent _ _ (q.enter s g _ (by rw [hst]; nofun) nofun rfl h)
      · exact h
  | forceGate =>
    show P (s.handleForceGate args).state
    unfold State.handleForceGate
    split
    · split
      · exact h
      · split
        · next hst => exact q.force _ _ (by rcases hst with hst | hst <;> rw [hst] <;> nofun) h
        · exact h
    · exact h
  | setMemberOut =>
    show P (s.handleSetMemberOut args).state
    unfold State.handleSetMemberOut
    split
    · exact h
    · split
      · exact h
      · split
        · exact h
        · split
          · exact h
          · exact q.moves.changeOut _ _ _ h
  | reseedReach =>
    show P (s.handleReseedReach args).state
    unfold State.handleReseedReach
    split
    · exact h
    · split
      · next hp => exact q.reseed _ _ _ _ hp h
      · exact h
  | readMarks =>
    show P (s.handleReadMarks args).state
    unfold State.handleReadMarks
    split
    · exact h
    · simp only
      split
      · exact q.frame s _ rfl rfl rfl h
      · exact h
  | snapshot =>
    show P (s.handleSnapshot args).state
    unfold State.handleSnapshot
    split
    · exact q.frame s _ rfl rfl rfl h
    · exact h
  | readSnapshot =>
    show P (s.handleReadSnapshot args).state
    unfold State.handleReadSnapshot
    simp only
    with_reducible repeat' split
    case h_2 => exact q.frame s _ rfl rfl rfl h
    all_goals exact h
  | setSampler =>
    show P (s.handleSetSampler args).state
    unfold State.handleSetSampler
    split
    · exact q.frame s _ rfl rfl rfl h
    · exact h
  | readTrace =>
    show P (s.handleReadTrace args).state
    unfold State.handleReadTrace
    split
    · split
      · exact h
      · exact q.frame s _ rfl rfl rfl h
    · exact h

theorem Steady.respond (p : List Byte) (h : P s) : P (s.respond p) := by
  have hj : P (s.reserve.judgeRequest p).state := by
    have hr : P s.reserve := q.frame s _ rfl rfl rfl h
    unfold State.judgeRequest
    split
    · exact q.handle _ _ hr
    · exact hr
  have hp : ∀ status results, P ((s.reserve.judgeRequest p).state.placeReply p status results) :=
    fun _ _ => q.frame (s.reserve.judgeRequest p).state _ rfl rfl rfl hj
  unfold State.respond State.afterReply
  refine q.moves.finish ?_
  split
  · exact q.reset _ _ (hp _ _)
  · exact hp _ _

/-- Every operation of a command keeps the property. -/
theorem Steady.sturdy : Sturdy P where
  told s _ h := q.frame s _ rfl rfl rfl h
  finish _ h := q.moves.finish h
  due _ e h := q.takeDue e h
  beginD s h := by
    unfold State.beginD
    split
    · split
      · exact q.frame s _ rfl rfl rfl h
      · exact q.frame s _ rfl rfl rfl h
      · exact h
    · exact h
  beginF s claim h := by
    unfold State.beginF
    split
    · next w n _ =>
      split
      · simp only
        refine forEach_preserves (P := P) (fun g _ ht => q.moves.judge g ht) _ _ ?_
        have h1 : P (s.setPortF { s.portF.pop w with streak := n, sending := (s.portF.frames w).head? }) :=
          q.frame s _ rfl rfl rfl h
        unfold State.claimRoom State.passToField
        split
        · split
          · split
            · exact q.frame s _ rfl rfl rfl h
            · exact q.frame s _ rfl rfl rfl h
          · exact h1
        · exact h1
      · exact h
    · exact h
  respond _ p _ _ _ h := q.respond p h
  inbox s _ _ h := q.frame s _ rfl rfl rfl h
  tick _ h := q.ticked _ h
  first _ k h := q.firstSilence k h
  second _ k h := q.secondSilence k h
  written s h := by
    unfold State.retainedWritten
    split
    · exact q.store s _ ⟨rfl, rfl, nofun, fun hn => hn⟩ h
    · exact h
  judge _ g h := q.moves.judge g h
  countD s _ h := q.frame s _ rfl rfl rfl h
  countF s _ h := q.frame s _ rfl rfl rfl h
  pass s _ h := by
    unfold State.passToField
    split <;> exact q.frame s _ rfl rfl rfl h
  forward s _ h := by
    unfold State.forwardUp
    split <;> exact q.frame s _ rfl rfl rfl h
  setpoint _ g f h := q.judgeSetpoint g f h
  keepalive _ i k h := q.takeKeepalive i k h
  inflow _ i k f h := q.takeInflow i k f h
  position _ g o f h := q.takePosition g o f h
  gauge _ g l y h := q.takeGauge g l y h
  freeF s h := q.frame s _ rfl rfl rfl h
  freeD s h := q.frame s _ rfl rfl rfl h

/-- Every step keeps the property. -/
theorem Steady.step {t : State} (h : P s) (hs : step s = .next t) : P t :=
  q.sturdy.step (fun s _ h => q.frame s _ rfl rfl rfl h)
    (fun s _ h => q.reset _ _ (q.frame s _ rfl rfl rfl h)) (fun s _ h => q.reset _ _ (q.frame s _ rfl rfl rfl h))
    (fun s _ h => q.frame s _ rfl rfl rfl h) h hs

end steady

end Sys2Proof.Machine
end

section
/-! The Plan Store stays sound, and the unbound channels stay exactly those of the absent gates. -/

namespace Sys2Proof.Machine

theorem allFin_nodup (n : Nat) : (allFin n).Nodup := List.nodup_ofFn.mpr fun _ _ h => h

/-- Folding, over different records, an operation that writes the record it names alone, and into it what depends on the old record
and on what no such operation changes: every record named is written once. -/
theorem forEach_at {α β : Type} (get : State → α → β) (f : α → State → State) (Q : State → Prop) (new : α → β → β)
    (hQ : ∀ a s, Q s → Q (f a s)) (hself : ∀ a s, Q s → get (f a s) a = new a (get s a))
    (hother : ∀ a b s, Q s → b ≠ a → get (f a s) b = get s b) {xs : List α} (nd : xs.Nodup) {s : State} (hs : Q s) :
    (∀ a ∈ xs, get (forEach xs f s) a = new a (get s a)) ∧ ∀ a, a ∉ xs → get (forEach xs f s) a = get s a := by
  induction xs generalizing s with
  | nil => exact ⟨fun a ha => absurd ha List.not_mem_nil, fun _ _ => rfl⟩
  | cons x xs ih =>
    have hnd := List.nodup_cons.mp nd
    obtain ⟨h1, h2⟩ := ih hnd.2 (hQ x s hs)
    refine ⟨fun a ha => ?_, fun a ha => ?_⟩
    · rcases List.mem_cons.mp ha with rfl | ha
      · exact (h2 a hnd.1).trans (hself a s hs)
      · have hne : a ≠ x := fun e => hnd.1 (e ▸ ha)
        exact (h1 a ha).trans (congrArg (new a) (hother x a s hs hne))
    · rw [List.mem_cons, not_or] at ha
      exact (h2 a ha.2).trans (hother x a s hs ha.1)

/-- The empty plan passes every check. -/
theorem empty_valid : Plan.empty.valid = true := by decide

/-- What a reset leaves in the Plan Store. -/
theorem resetAll_store (s : State) (kind : ResetKind) : (s.resetAll kind).store = s.store.afterReset := by
  unfold State.resetAll
  simp only
  split <;> simp only [quiet_store.notify] <;> rfl

/-- A COMMIT that is carried out makes PENDING the ACTIVE plan and starts the retained write (R163). -/
theorem commitPlan_store (s : State) :
    s.commitPlan.store = { s.store with
      active := s.store.planPending, retained := { plan := s.store.planPending, agrees := false }, writing := true } := by
  unfold State.commitPlan
  simp only
  rw [quiet_store.notify]
  show ({ ((s.setStore { s.store with active := s.store.planPending }).takePlan s.active).store with
    planPending := _, retained := _, writing := _ } : PlanStore) = _
  rw [calm_store.takePlan]
  rfl

/-- The Plan Store's soundness looks at the Plan Store alone. -/
theorem StoreSound.of_store {s t : State} (h : StoreSound s) (e : t.store = s.store) : StoreSound t := by
  unfold StoreSound at *
  rwa [e]

theorem StoreSound.moved {s : State} {r : PlanStore} (m : StoreMoves s.store r) (h : StoreSound s) :
    StoreSound (s.setStore r) := by
  obtain ⟨ha, hr, hw, hn⟩ := h
  refine ⟨?_, ?_, fun h => ?_, m.run hn⟩
  · show r.active.valid = true
    rwa [m.active]
  · show r.retained.plan.valid = true
    rwa [m.retained]
  · have h1 := m.writing h
    have h2 := hw h1.1
    exact ⟨by rw [setStore_store, m.active, m.retained]; exact h2.1, h1.2.trans h2.2⟩

theorem StoreSound.committed {s : State} (hr : s.store.run = none) (hf : s.store.planPending.fault = none) :
    StoreSound s.commitPlan := by
  have hv : s.store.planPending.valid = true := by
    unfold Plan.valid
    rw [hf]
    rfl
  unfold StoreSound
  rw [commitPlan_store]
  exact ⟨hv, hv, fun _ => ⟨rfl, rfl⟩, fun n hn => by rw [hr] at hn; cases hn⟩

theorem StoreSound.reset {s : State} (kind : ResetKind) (h : StoreSound s) : StoreSound (s.resetAll kind) := by
  obtain ⟨_, hr, _, _⟩ := h
  unfold StoreSound
  rw [resetAll_store]
  refine ⟨?_, hr, nofun, nofun⟩
  show (if s.store.retained.agrees then s.store.retained.plan else Plan.empty).valid = true
  split
  · exact hr
  · exact empty_valid

/-- The Plan Store's soundness is kept by every command. -/
theorem steady_storeSound : Steady (fun _ => True) StoreSound where
  frame _ _ _ _ e h := h.of_store e
  start _ _ _ _ h := h.of_store (quiet_store.startIncrement ..)
  enter _ _ _ _ _ _ h := h.of_store (quiet_store.enter ..)
  given _ _ _ _ _ _ _ _ h := h.of_store rfl
  placed _ _ _ _ _ h := h.of_store rfl
  marked _ _ _ _ _ _ _ h := h.of_store rfl
  ticked _ h := h.of_store rfl
  advance _ _ _ _ _ h := h.of_store (calm_store.advanceLine ..)
  reseed _ _ _ _ _ h := h.of_store (calm_store.reseed ..)
  store _ _ m h := h.moved m
  commit _ hr hf _ := StoreSound.committed hr hf
  reset _ kind h := h.reset kind
  full _ := trivial
  zero := trivial
  clamped _ _ _ _ _ _ _ := trivial
  filled _ _ _ _ _ _ _ _ _ := trivial
  fallback _ _ _ _ _ _ := trivial
  sched _ _ _ _ := trivial

/-- Settles O55: the writes of the Plan Store keep it sound, and every other operation leaves it. -/
theorem stepsKeepTheStoreSound : Obligations.StepsKeepTheStoreSound := fun _ _ h hs => steady_storeSound.step h hs

/-- Starting an increment puts its channel into STEP and leaves the other channels. -/
theorem startIncrement_chan (s : State) (g : Gate) (target : Nat) (w : FieldQueue) (h : Gate) :
    (s.startIncrement g target w).chan h = if h = g then
      { s.chan g with state := .step target (s.gateEntry g).stepTimeout, tag := ((s.chan g).tag + 1) % 65536,
                      start := (s.chan g).measured,
                      dwellDir := some (if (s.chan g).measured.getD 0 < target then .up else .down),
                      silencePending := (s.chan g).silencePending }
    else s.chan h := by
  have hn : ∀ (u : State), (u.noteEnqueued g).chan h = u.chan h := by
    intro u
    unfold State.noteEnqueued
    split
    · split <;> rfl
    · rfl
  unfold State.startIncrement
  simp only
  rw [hn, chan_setPortF, enter_chan]
  split
  · rw [chan_setChan_self]
    simp [Channel.inState, ChanState.isStep]
  · next hne => rw [chan_setChan_ne _ _ hne]

/-- A channel with work is in IDLE. -/
theorem workTarget_idle {s : State} {g : Gate} {target : Nat} (h : s.workTarget g = some target) : (s.chan g).state = .idle := by
  unfold State.workTarget at h
  split at h
  · next hc =>
    simp only [Bool.and_eq_true, decide_eq_true_eq] at hc
    exact hc.1
  · cases h

/-- Which channels are unbound, and the ACTIVE plan, are what the invariant looks at. -/
theorem BindingSound.of_same {s t : State} (h : BindingSound s) (ha : t.active = s.active)
    (hc : ∀ g, (t.chan g).state = .unbound ↔ (s.chan g).state = .unbound) : BindingSound t := fun g => by
  rw [hc, ha]
  exact h g

/-- A channel that is bound before and after a write of it. -/
theorem BindingSound.write {s t : State} (h : BindingSound s) (ha : t.active = s.active) (g : Gate)
    (hs : (s.chan g).state ≠ .unbound) (ht : (t.chan g).state ≠ .unbound) (ho : ∀ x, x ≠ g → t.chan x = s.chan x) :
    BindingSound t := h.of_same ha fun x => by
  by_cases hx : x = g
  · subst hx
    exact ⟨fun h => absurd h ht, fun h => absurd h hs⟩
  · rw [ho x hx]

/-- The tick of a state holds its kind. -/
theorem tick_unbound (st : ChanState) : st.tick = .unbound ↔ st = .unbound := by
  cases st with
  | dwell own => cases own <;> simp [ChanState.tick]
  | _ => simp [ChanState.tick]

/-- The part of a channel's tick that a state sees. -/
theorem channel_tick_state (c : Channel) (limit : Nat) : (c.tick limit).state = c.state.tick := by
  unfold Channel.tick
  simp only
  split <;> rfl

theorem tick_chan (s : State) (g : Gate) : s.tick.chan g = (s.chan g).tick (s.gateEntry g).staleLimit := Tab.get_gen ..

/-- A channel at a commit is unbound exactly when its new binding is none, if it was so before. -/
theorem atCommit_unbound (c : Channel) (old new : Option Binding) (h : c.state = .unbound ↔ old = none) :
    (c.atCommit old new).state = .unbound ↔ new = none := by
  unfold Channel.atCommit
  split
  · simpa using h
  · simp [Channel.resetAs]
  · simp [Channel.resetAs]
  · split
    · next a b e => subst e; simpa using h
    · simp

theorem binding_none (p : Plan) (g : Gate) : p.binding g = none ↔ p.bound g = false := by
  unfold Plan.binding
  split
  · next h => simp [h]
  · next h => simp [h]

/-- A channel takes the commit (R24): its record alone. -/
theorem commitChannel_chan (s : State) (old : Plan) (g h : Gate) :
    (s.commitChannel old g).chan h
      = if h = g then (if old.binding g = s.active.binding g then s.chan g
          else (s.chan g).atCommit (old.binding g) (s.active.binding g))
        else s.chan h := by
  have he : ∀ (u : State) c, (u.endTrace c).chan h = u.chan h := by
    intro u c
    unfold State.endTrace
    split <;> rfl
  unfold State.commitChannel
  split
  · split
    · next e => rw [e]
    · rfl
  · simp only
    have hw : ((s.setChan g ((s.chan g).atCommit (old.binding g) (s.active.binding g))).leaveWaits g).chan h
        = if h = g then (s.chan g).atCommit (old.binding g) (s.active.binding g) else s.chan h := by
      unfold State.leaveWaits
      rw [chan_setPortF, chan_setChan]
    split
    · rw [he, hw]
    · exact hw

/-- Every channel takes the commit (R24). -/
theorem commitChannels_chan (s : State) (old : Plan) (g : Gate) :
    (forEach (allFin 48) (fun g s => s.commitChannel old g) s).chan g
      = if old.binding g = s.active.binding g then s.chan g
        else (s.chan g).atCommit (old.binding g) (s.active.binding g) := by
  refine (forEach_at (fun t g => t.chan g) (fun g s => s.commitChannel old g) (fun t => t.active = s.active)
    (fun g c => if old.binding g = s.active.binding g then c else c.atCommit (old.binding g) (s.active.binding g))
    (fun g t ht => (quiet_active.commitChannel t old g).trans ht) (fun g t ht => ?_) (fun g h t _ hne => ?_)
    (allFin_nodup 48) rfl).1 g (mem_allFin g)
  · simp only [commitChannel_chan, ht, if_true]
  · simp only [commitChannel_chan, if_neg hne]

/-- The reaches and stations take the commit without a channel's change. -/
theorem commitReaches_chans (s : State) (old : Plan) (ks : List ReachId) :
    (forEach ks (fun k s => s.commitReach old k) s).chans = s.chans := by
  refine forEach_keeps (π := State.chans) (fun k t => ?_) ks s
  unfold State.commitReach State.reseed
  simp only
  split
  · split
    · rfl
    · split
      · rfl
      · exact notify_chans ..
  · split
    · rfl
    · split <;> rfl

/-- The channels behind the channel, station and reach parts of a COMMIT. -/
theorem commitHead_chan (s : State) (old : Plan) (g : Gate) :
    (forEach (allFin 5) (fun k s => s.commitReach old k)
      ((forEach (allFin 48) (fun g s => s.commitChannel old g) s).commitStations old)).chan g
      = if old.binding g = s.active.binding g then s.chan g
        else (s.chan g).atCommit (old.binding g) (s.active.binding g) := by
  rw [← commitChannels_chan]
  unfold State.chan
  rw [commitReaches_chans]
  rfl

/-- The Plan Store behind the channel, station and reach parts of a COMMIT. -/
theorem commitHead_store (s : State) (old : Plan) :
    (forEach (allFin 5) (fun k s => s.commitReach old k)
      ((forEach (allFin 48) (fun g s => s.commitChannel old g) s).commitStations old)).store = s.store := by
  refine (forEach_keeps (π := State.store) (fun k t => calm_store.commitReach t old k) _ _).trans ?_
  exact forEach_keeps (π := State.store) (fun g t => calm_store.commitChannel t old g) _ _

theorem advanceLine_chans (s : State) (k : ReachId) (f : Nat) : (s.advanceLine k f).chans = s.chans := by
  unfold State.advanceLine
  simp only
  split
  · rfl
  · exact notify_chans ..

theorem reseed_chans (s : State) (k : ReachId) (f : Nat) (c : ReseedCause) : (s.reseed k f c).chans = s.chans := by
  unfold State.reseed
  exact notify_chans ..

theorem resetAll_chan (s : State) (kind : ResetKind) (g : Gate) :
    (s.resetAll kind).chan g = channelReset s.store.restored g := by
  have hc : (s.resetAll kind).chans = s.blocksReset.chans := by
    unfold State.resetAll
    simp only
    split <;> simp only [notify_chans]
  unfold State.chan
  rw [hc]
  exact Tab.get_gen ..

/-- The writes of the channels keep exactly the unbound ones in UNBOUND. -/
theorem writes_bindingSound : Writes (fun _ => True) BindingSound where
  frame s t hc _ he h := h.of_same (congrArg PlanStore.active he) fun g => by unfold State.chan; rw [hc]
  start s g target hw h := by
    refine h.write (quiet_active.startIncrement ..) g ?_ ?_ (fun x hx => ?_)
    · rw [workTarget_idle hw]; nofun
    · rw [startIncrement_chan, if_pos rfl]; nofun
    · rw [startIncrement_chan, if_neg hx]
  enter s g st hs ht _ h := h.write (quiet_active.enter ..) g hs (by rw [enter_chan_self]; exact ht) fun x hx =>
    enter_chan_ne _ _ hx
  given s g o src mark pend hs _ h := h.write rfl g hs (by rw [chan_setChan_self]; exact hs) fun x hx =>
    chan_setChan_ne _ _ hx
  placed s g o hs _ h := h.write rfl g hs (by rw [chan_setChan_self]; exact hs) fun x hx => chan_setChan_ne _ _ hx
  marked s g c hc _ _ _ h := h.of_same rfl fun x => by
    rw [chan_setChan]
    split
    · next e => rw [hc, e]
    · rfl
  ticked s h := h.of_same rfl fun g => by rw [tick_chan, channel_tick_state, tick_unbound]
  advance s k _ _ f h := h.of_same (calm_active.advanceLine ..) fun g => by
    unfold State.chan
    rw [advanceLine_chans]
  reseed s k f c _ h := h.of_same (calm_active.reseed ..) fun g => by
    unfold State.chan
    rw [reseed_chans]
  store s r m h := h.of_same m.active fun _ => Iff.rfl
  reset s kind _ g := by
    have ha : (s.resetAll kind).active = s.store.restored := congrArg PlanStore.active (resetAll_store s kind)
    rw [resetAll_chan, ha]
    unfold channelReset Channel.resetAs
    simp only
    split
    · next h => simp [h]
    · next h => simp [h]
  full _ := trivial
  zero := trivial
  clamped _ _ _ _ _ _ _ := trivial
  filled _ _ _ _ _ _ _ _ _ := trivial
  fallback _ _ _ _ _ _ := trivial
  sched _ _ _ _ := trivial

theorem steady_bindingSound : Steady (fun _ => True) BindingSound where
  toWrites := writes_bindingSound
  commit s _ _ h := by
    have hhead : BindingSound (forEach (allFin 5) (fun k t => t.commitReach s.active k)
        ((forEach (allFin 48) (fun g t => t.commitChannel s.active g)
          (s.setStore { s.store with active := s.store.planPending })).commitStations s.active)) := by
      intro g
      have ha := congrArg PlanStore.active
        (commitHead_store (s.setStore { s.store with active := s.store.planPending }) s.active)
      rw [show State.active _ = s.store.planPending from ha, commitHead_chan, ← binding_none]
      show (if s.active.binding g = s.store.planPending.binding g then _ else _ : Channel).state = _ ↔ _
      have hb : (s.chan g).state = .unbound ↔ s.active.binding g = none := (h g).trans (binding_none ..).symm
      split
      · next e => rw [← e]; exact hb
      · exact atCommit_unbound _ _ _ hb
    unfold State.commitPlan
    refine writes_bindingSound.notify _ _ _ _ (BindingSound.of_same (s :=
      (s.setStore { s.store with active := s.store.planPending }).takePlan s.active) ?_ ?_ fun _ => Iff.rfl)
    · rw [takePlan_eq]
      exact writes_bindingSound.planTail _ hhead
    · rfl

/-- Settles O59: every write of a channel that is bound leaves it bound, and a COMMIT and a reset bring each channel to its
entry. -/
theorem stepsKeepTheBindings : Obligations.StepsKeepTheBindings := fun _ _ h hs => steady_bindingSound.step h hs

end Sys2Proof.Machine
end

section
/-! Straight-line tables (R28, R31, R32, R35, R37, R38): where an argument lies among the breakpoints, the value there, and how the
value moves with the argument and with the nodes. A list is read by index, 0 beyond its end. -/

namespace Sys2Proof.Machine

theorem lastIdxFrom_of_none {α : Type} (p : α → Bool) (xs : List α) (i best : Nat) (h : ∀ x ∈ xs, p x = false) :
    lastIdxFrom p xs i best = best := by
  induction xs generalizing i best with
  | nil => rfl
  | cons x xs ih =>
    unfold lastIdxFrom
    rw [h x (List.mem_cons_self ..)]
    exact ih _ _ fun y hy => h y (List.mem_cons_of_mem _ hy)

theorem lastIdxFrom_eq {α : Type} (p : α → Bool) (xs : List α) (i best k : Nat) (hk : k < xs.length) (hp : p xs[k] = true)
    (hn : ∀ j (hj : j < xs.length), k < j → p xs[j] = false) : lastIdxFrom p xs i best = i + k := by
  induction xs generalizing i best k with
  | nil => exact absurd hk (Nat.not_lt_zero _)
  | cons x xs ih =>
    unfold lastIdxFrom
    cases k with
    | zero =>
      rw [show p x = true from hp, lastIdxFrom_of_none]
      · rfl
      · intro y hy
        obtain ⟨j, hj, rfl⟩ := List.getElem_of_mem hy
        exact hn (j + 1) (Nat.succ_lt_succ hj) (Nat.succ_pos _)
    | succ k =>
      rw [ih (i + 1) _ k (Nat.lt_of_succ_lt_succ hk) hp fun j hj hkj => hn (j + 1) (Nat.succ_lt_succ hj) (Nat.succ_lt_succ hkj)]
      omega

/-- The last index whose entry meets `p`. -/
theorem lastIdx_eq {p : Int → Bool} {xs : List Int} {k : Nat} (hk : k < xs.length) (hp : p (xs.getD k 0) = true)
    (hn : ∀ j, k < j → j < xs.length → p (xs.getD j 0) = false) : lastIdx p xs = k := by
  have hd : ∀ j (hj : j < xs.length), xs.getD j 0 = xs[j] := fun j hj => List.getD_eq_getElem _ _ hj
  unfold lastIdx
  rw [lastIdxFrom_eq p xs 0 0 k hk (hd k hk ▸ hp) fun j hj hkj => hd j hj ▸ hn j hkj hj]
  exact Nat.zero_add k

/-- The entries rise strictly. -/
def Rising (xs : List Int) : Prop := ∀ i j, i < j → j < xs.length → xs.getD i 0 < xs.getD j 0

/-- The entries do not fall. -/
def Sloping (xs : List Int) : Prop := ∀ i j, i ≤ j → j < xs.length → xs.getD i 0 ≤ xs.getD j 0

theorem Rising.sloping {xs : List Int} (h : Rising xs) : Sloping xs := fun i j hij hj => by
  rcases Nat.lt_or_eq_of_le hij with hlt | rfl
  · exact (h i j hlt hj).le
  · exact le_refl _

theorem headD_eq_getD {α : Type} (xs : List α) (d : α) : xs.headD d = xs.getD 0 d := by
  cases xs <;> rfl

theorem getLastD_eq_getD {α : Type} (xs : List α) (d : α) : xs.getLastD d = xs.getD (xs.length - 1) d := by
  cases xs with
  | nil => rfl
  | cons x xs =>
    rw [List.getLastD_cons, List.getD_eq_getElem _ _ (by simp), ← List.getLast_eq_getElem (by simp)]
    cases xs with
    | nil => rfl
    | cons y ys => rw [List.getLastD_eq_getLast?, List.getLast?_eq_some_getLast (by simp)]; rfl

/-- What holds at 0 and not at `m` fails for the first time somewhere between. -/
theorem exists_crossing {p : Nat → Prop} [DecidablePred p] {m : Nat} (h0 : p 0) (hm : ¬ p m) : ∃ i < m, p i ∧ ¬ p (i + 1) := by
  induction m with
  | zero => exact absurd h0 hm
  | succ m ih =>
    by_cases h : p m
    · exact ⟨m, Nat.lt_succ_self _, h, hm⟩
    · obtain ⟨i, hi, hp⟩ := ih h
      exact ⟨i, Nat.lt_succ_of_lt hi, hp⟩

/-- An argument from the first breakpoint up and below the last lies in a segment. -/
theorem exists_segment {xs : List Int} {x : Int} (h0 : xs.getD 0 0 ≤ x) (hl : x < xs.getD (xs.length - 1) 0) :
    ∃ k, k + 1 < xs.length ∧ xs.getD k 0 ≤ x ∧ x < xs.getD (k + 1) 0 := by
  obtain ⟨k, hk, h1, h2⟩ := exists_crossing (p := fun k => xs.getD k 0 ≤ x) h0 (not_le.mpr hl)
  exact ⟨k, by omega, h1, not_le.mp h2⟩

theorem interpDown_le {x0 x1 y0 y1 x : Int} (h0 : x0 ≤ x) (h1 : x ≤ x1) (h : x0 < x1) (hy : y0 ≤ y1) :
    y0 ≤ interpDown x0 x1 y0 y1 x ∧ interpDown x0 x1 y0 y1 x ≤ y1 := by
  unfold interpDown
  have hd : 0 < x1 - x0 := by omega
  have h1 : 0 ≤ (y1 - y0) * (x - x0) / (x1 - x0) := Int.ediv_nonneg (Int.mul_nonneg (by omega) (by omega)) hd.le
  have h2 : (y1 - y0) * (x - x0) / (x1 - x0) ≤ y1 - y0 := by
    refine Int.ediv_le_of_le_mul hd ?_
    exact Int.mul_le_mul_of_nonneg_left (by omega) (by omega)
  omega

theorem interpDown_lt {x0 x1 y0 y1 x : Int} (h0 : x0 ≤ x) (h1 : x < x1) (hy : y0 < y1) : interpDown x0 x1 y0 y1 x < y1 := by
  unfold interpDown
  have hd : 0 < x1 - x0 := by omega
  have h2 : (y1 - y0) * (x - x0) / (x1 - x0) < y1 - y0 := by
    refine Int.ediv_lt_of_lt_mul hd ?_
    exact Int.mul_lt_mul_of_pos_left (by omega) (by omega)
  omega

theorem interpDown_mono {x0 x1 y0 y1 x x' : Int} (h : x0 < x1) (hy : y0 ≤ y1) (hx : x ≤ x') :
    interpDown x0 x1 y0 y1 x ≤ interpDown x0 x1 y0 y1 x' := by
  unfold interpDown
  have : (y1 - y0) * (x - x0) / (x1 - x0) ≤ (y1 - y0) * (x' - x0) / (x1 - x0) :=
    Int.ediv_le_ediv (by omega) (Int.mul_le_mul_of_nonneg_left (by omega) (by omega))
  omega

/-- The value between two nodes rises with the nodes. -/
theorem interpDown_nodes {x0 x1 y0 y1 z0 z1 x : Int} (h0 : x0 ≤ x) (h1 : x ≤ x1) (h : x0 < x1) (hy0 : y0 ≤ z0) (hy1 : y1 ≤ z1) :
    interpDown x0 x1 y0 y1 x ≤ interpDown x0 x1 z0 z1 x := by
  have hd : 0 < x1 - x0 := by omega
  have hform : ∀ a b : Int, interpDown x0 x1 a b x = (a * (x1 - x) + b * (x - x0)) / (x1 - x0) := by
    intro a b
    unfold interpDown
    rw [show a * (x1 - x) + b * (x - x0) = (b - a) * (x - x0) + a * (x1 - x0) by ring, Int.add_mul_ediv_right _ _ hd.ne',
      add_comm]
  rw [hform, hform]
  refine Int.ediv_le_ediv hd ?_
  have := Int.mul_le_mul_of_nonneg_right hy0 (show 0 ≤ x1 - x by omega)
  have := Int.mul_le_mul_of_nonneg_right hy1 (show 0 ≤ x - x0 by omega)
  omega

section table

variable {xs ys : List Int} (hx : Rising xs)

include hx

/-- From the last breakpoint on a table gives the last value. -/
theorem tableAt_last {x : Int} (hn : 0 < xs.length) (h : xs.getD (xs.length - 1) 0 ≤ x) :
    tableAt xs ys x = ys.getD (xs.length - 1) 0 := by
  have h0 : xs.getD 0 0 ≤ xs.getD (xs.length - 1) 0 := hx.sloping 0 _ (Nat.zero_le _) (by omega)
  unfold tableAt
  simp only [headD_eq_getD, getLastD_eq_getD]
  rw [min_eq_right h, max_eq_right h0, if_pos rfl]

/-- Within a segment a table gives the value between its two nodes. -/
theorem tableAt_segment {x : Int} {k : Nat} (hk : k + 1 < xs.length) (h0 : xs.getD k 0 ≤ x) (h1 : x < xs.getD (k + 1) 0) :
    tableAt xs ys x = interpDown (xs.getD k 0) (xs.getD (k + 1) 0) (ys.getD k 0) (ys.getD (k + 1) 0) x := by
  have hlast : x < xs.getD (xs.length - 1) 0 := lt_of_lt_of_le h1 (hx.sloping _ _ (by omega) (by omega))
  have hfirst : xs.getD 0 0 ≤ x := le_trans (hx.sloping _ _ (Nat.zero_le _) (by omega)) h0
  have hidx : lastIdx (fun b => decide (b ≤ x)) xs = k := by
    refine lastIdx_eq (by omega) (decide_eq_true h0) fun j hkj hj => decide_eq_false (not_le.mpr ?_)
    exact lt_of_lt_of_le h1 (hx.sloping _ _ hkj hj)
  unfold tableAt
  simp only [headD_eq_getD, getLastD_eq_getD]
  rw [min_eq_left hlast.le, max_eq_right hfirst, if_neg hlast.ne, hidx]

/-- At a breakpoint a table gives its value. -/
theorem tableAt_node {k : Nat} (hk : k < xs.length) : tableAt xs ys (xs.getD k 0) = ys.getD k 0 := by
  by_cases hl : k + 1 < xs.length
  · rw [tableAt_segment hx hl (le_refl _) (hx _ _ (Nat.lt_succ_self _) hl)]
    simp [interpDown]
  · have he : k = xs.length - 1 := by omega
    subst he
    exact tableAt_last hx (by omega) (le_refl _)

/-- Up to the first breakpoint a table gives the first value. -/
theorem tableAt_first {x : Int} (hn : 0 < xs.length) (h : x ≤ xs.getD 0 0) : tableAt xs ys x = ys.getD 0 0 := by
  rw [← tableAt_node hx hn]
  have h0 : xs.getD 0 0 ≤ xs.getD (xs.length - 1) 0 := hx.sloping 0 _ (Nat.zero_le _) (by omega)
  unfold tableAt
  simp only [headD_eq_getD, getLastD_eq_getD]
  rw [min_eq_left (le_trans h h0), max_eq_left h, min_eq_left h0, max_eq_left (le_refl _)]

/-- Where an argument lies: below, beyond or in a segment of the breakpoints. -/
theorem tableAt_cases (x : Int) (hn : 0 < xs.length) :
    (x < xs.getD 0 0 ∧ ∀ ys, tableAt xs ys x = ys.getD 0 0)
    ∨ (xs.getD (xs.length - 1) 0 ≤ x ∧ ∀ ys, tableAt xs ys x = ys.getD (xs.length - 1) 0)
    ∨ ∃ k, k + 1 < xs.length ∧ xs.getD k 0 ≤ x ∧ x < xs.getD (k + 1) 0
        ∧ ∀ ys, tableAt xs ys x = interpDown (xs.getD k 0) (xs.getD (k + 1) 0) (ys.getD k 0) (ys.getD (k + 1) 0) x := by
  by_cases h0 : xs.getD 0 0 ≤ x
  · by_cases hl : x < xs.getD (xs.length - 1) 0
    · obtain ⟨k, hk, h1, h2⟩ := exists_segment h0 hl
      exact .inr (.inr ⟨k, hk, h1, h2, fun ys => tableAt_segment hx hk h1 h2⟩)
    · exact .inr (.inl ⟨not_lt.mp hl, fun ys => tableAt_last hx hn (not_lt.mp hl)⟩)
  · exact .inl ⟨not_le.mp h0, fun ys => tableAt_first hx hn (not_le.mp h0).le⟩

/-- A table with larger nodes has a larger value. -/
theorem tableAt_nodes {zs : List Int} (hn : 0 < xs.length) (h : ∀ k < xs.length, ys.getD k 0 ≤ zs.getD k 0) (x : Int) :
    tableAt xs ys x ≤ tableAt xs zs x := by
  rcases tableAt_cases hx x hn with ⟨_, he⟩ | ⟨_, he⟩ | ⟨k, hk, h0, h1, he⟩
  · rw [he, he]; exact h 0 hn
  · rw [he, he]; exact h _ (by omega)
  · rw [he, he]
    exact interpDown_nodes h0 h1.le (hx _ _ (Nat.lt_succ_self _) hk) (h k (by omega)) (h (k + 1) hk)

variable (hy : Sloping ys) (hlen : ys.length = xs.length)

include hy hlen

/-- A table's value within a segment lies between its nodes. -/
theorem tableAt_between {x : Int} {k : Nat} (hk : k + 1 < xs.length) (h0 : xs.getD k 0 ≤ x) (h1 : x ≤ xs.getD (k + 1) 0) :
    ys.getD k 0 ≤ tableAt xs ys x ∧ tableAt xs ys x ≤ ys.getD (k + 1) 0 := by
  have hyk : ys.getD k 0 ≤ ys.getD (k + 1) 0 := hy _ _ (by omega) (by omega)
  rcases lt_or_eq_of_le h1 with h1 | h1
  · rw [tableAt_segment hx hk h0 h1]
    exact interpDown_le h0 h1.le (hx _ _ (Nat.lt_succ_self _) hk) hyk
  · rw [h1, tableAt_node hx hk]
    exact ⟨hyk, le_refl _⟩

/-- A table of nodes that do not fall has values that do not fall. -/
theorem tableAt_mono (hn : 0 < xs.length) {x x' : Int} (h : x ≤ x') : tableAt xs ys x ≤ tableAt xs ys x' := by
  have hlow : ∀ z k, k < xs.length → xs.getD k 0 ≤ z → ys.getD k 0 ≤ tableAt xs ys z := by
    intro z k hk hz
    rcases tableAt_cases hx z hn with ⟨hb, _⟩ | ⟨_, he⟩ | ⟨i, hi, h0, h1, _⟩
    · exact absurd (le_trans (hx.sloping 0 k (Nat.zero_le _) hk) hz) (not_le.mpr hb)
    · rw [he]; exact hy _ _ (by omega) (by omega)
    · have hki : k ≤ i := by
        by_contra hc
        exact absurd (lt_of_le_of_lt hz h1) (not_lt.mpr (hx.sloping (i + 1) k (by omega) hk))
      exact le_trans (hy _ _ hki (by omega)) (tableAt_between hx hy hlen hi h0 h1.le).1
  rcases tableAt_cases hx x hn with ⟨_, he⟩ | ⟨hb, he⟩ | ⟨k, hk, h0, h1, he⟩
  · rw [he]
    by_cases hz : xs.getD 0 0 ≤ x'
    · exact hlow x' 0 hn hz
    · rw [tableAt_first hx hn (not_le.mp hz).le]
  · rw [he]; exact hlow x' _ (by omega) (le_trans hb h)
  · by_cases hz : x' < xs.getD (k + 1) 0
    · rw [he, tableAt_segment hx hk (le_trans h0 h) hz]
      exact interpDown_mono (hx _ _ (Nat.lt_succ_self _) hk) (hy _ _ (by omega) (by omega)) h
    · exact le_trans (tableAt_between hx hy hlen hk h0 h1.le).2 (hlow x' _ hk (not_lt.mp hz))

end table

end Sys2Proof.Machine
end

section
/-! Which entries a plan that passes every check holds (R160, R161): the checks of each table, entry by entry. -/

namespace Sys2Proof

/-- A table has no failure exactly when no check of a counting entry refuses. -/
theorem tableFault_eq_none {n t : Nat} {counts : Fin n → Bool} {checks : Fin n → List (Nat × Bool)} :
    tableFault t counts checks = none ↔ ∀ i, counts i = true → ∀ c ∈ checks i, c.2 = false := by
  unfold tableFault
  rw [List.findSome?_eq_none_iff]
  constructor
  · intro h i hi c hc
    have h := h i (mem_allFin i)
    rw [if_pos hi, Option.map_eq_none_iff, firstRefusal, Option.map_eq_none_iff, List.find?_eq_none] at h
    simpa using h c hc
  · intro h i _
    split
    · next hi =>
      rw [Option.map_eq_none_iff, firstRefusal, Option.map_eq_none_iff, List.find?_eq_none]
      intro c hc
      rw [h i hi c hc]
      decide
    · rfl

/-- The checks that a plan passes, table by table. -/
structure Plan.Passes (p : Plan) : Prop where
  station : ∀ k, (p.stations.get k).isPresent = true → ∀ c ∈ p.stationChecks k, c.2 = false
  reach : ∀ k, ∀ c ∈ p.reachChecks k, c.2 = false
  surface : ∀ f, (p.surfaces.get f).isPresent = true → ∀ c ∈ p.surfaceChecks f, c.2 = false
  gate : ∀ g, p.bound g = true → ∀ c ∈ p.gateChecks g, c.2 = false
  gang : ∀ c, (p.gangs.get c).isPresent = true → ∀ x ∈ p.gangChecks c, x.2 = false
  comp : ∀ k, (p.stations.get k).isPresent = true → ∀ c ∈ p.compChecks k, c.2 = false
  auth : ∀ n, (p.auth.get n).isPresent = true → ∀ c ∈ p.authChecks n, c.2 = false
  sched : ∀ n, (p.sched.get n).isPresent = true → ∀ c ∈ p.schedChecks n, c.2 = false

/-- A valid plan passes the checks of every table (R160). -/
theorem Plan.passes_of_valid {p : Plan} (h : p.valid = true) : p.Passes := by
  have hn : p.fault = none := by simpa [Plan.valid] using h
  unfold Plan.fault at hn
  simp only [Option.orElse_eq_orElse, Option.orElse_eq_or, Option.or_eq_none_iff, tableFault_eq_none] at hn
  obtain ⟨h1, h2, h3, h4, h5, h6, h7, h8⟩ := hn
  exact ⟨h1, fun k => h2 k trivial, h3, h4, h5, h6, h7, h8⟩

/-- A strictly increasing list, read by index. -/
theorem pairwise_of_increasing {xs : List Nat} (h : increasing xs = true) : xs.Pairwise (· < ·) := by
  induction xs with
  | nil => exact List.Pairwise.nil
  | cons a xs ih =>
    cases xs with
    | nil => exact List.pairwise_singleton ..
    | cons b xs =>
      simp only [increasing, Bool.and_eq_true, decide_eq_true_eq] at h
      have hp := ih h.2
      refine List.pairwise_cons.mpr ⟨fun x hx => ?_, hp⟩
      rcases List.mem_cons.mp hx with rfl | hx
      · exact h.1
      · exact lt_trans h.1 ((List.pairwise_cons.mp hp).1 x hx)

/-- A list that does not decrease, read by index. -/
theorem pairwise_of_nondecreasing {xs : List Nat} (h : nondecreasing xs = true) : xs.Pairwise (· ≤ ·) := by
  induction xs with
  | nil => exact List.Pairwise.nil
  | cons a xs ih =>
    cases xs with
    | nil => exact List.pairwise_singleton ..
    | cons b xs =>
      simp only [nondecreasing, Bool.and_eq_true, decide_eq_true_eq] at h
      have hp := ih h.2
      refine List.pairwise_cons.mpr ⟨fun x hx => ?_, hp⟩
      rcases List.mem_cons.mp hx with rfl | hx
      · exact h.1
      · exact le_trans h.1 ((List.pairwise_cons.mp hp).1 x hx)

/-- What the checks of a present gate entry say of the numbers that the rules read (R161). -/
structure GateEntry.Sound (p : Plan) (e : GateEntry) : Prop where
  stepUp : e.stepUp ≤ 1000
  fallback : ∀ t, e.fallback? = some t → t ≤ 1000
  station : ∃ k : StationId, e.station = k.1 ∧ p.hasStation k = true
  surface : ∃ f : SurfaceId, e.surface = f.1 ∧ (p.surfaces.get f).isPresent = true

theorem Plan.Passes.gateSound {p : Plan} (h : p.Passes) {g : Gate} (hb : p.bound g = true) : (p.gates.get g).Sound p := by
  have hc := h.gate g hb
  simp only [Plan.gateChecks, List.forall_mem_cons, Bool.not_eq_false', Bool.and_eq_true, Bool.or_eq_true, within,
    decide_eq_true_eq, beq_iff_eq] at hc
  obtain ⟨⟨⟨⟨⟨⟨⟨⟨⟨⟨⟨_, _⟩, hsurf⟩, hup⟩, _⟩, _⟩, _⟩, _⟩, _⟩, _⟩, hfall⟩, hst, hsf, _⟩ := hc
  refine ⟨hup.2, fun t ht => ?_, ?_, ?_⟩
  · unfold GateEntry.fallback? at ht
    split at ht
    · cases ht
    · next hne =>
      cases ht
      rcases hfall with hf | hf
      · exact hf.2
      · exact absurd hf hne
  · unfold Plan.stationAt at hst
    split at hst
    · next k hk => exact ⟨k, toFin?_eq_some.mp hk, hst⟩
    · cases hst
  · split at hsf
    · next f hf => exact ⟨f, toFin?_eq_some.mp hf, by simpa using hsf⟩
    · cases hsf

/-- The station a bound gate of a valid plan names. -/
theorem Plan.Passes.gate_station {p : Plan} (h : p.Passes) {g : Gate} (hb : p.bound g = true) :
    ∃ k, (p.gates.get g).station? = some k ∧ p.hasStation k = true := by
  obtain ⟨k, hk, hp⟩ := (h.gateSound hb).station
  exact ⟨k, by unfold GateEntry.station?; rw [hk, toFin?_val], hp⟩

/-- The members of a gang of a valid plan are bound gates. -/
theorem Plan.Passes.member_bound {p : Plan} (h : p.Passes) {c : GangId} {m : Gate} (hm : m ∈ p.membersOf c) :
    p.bound m = true := by
  unfold Plan.membersOf at hm
  split at hm
  · next hp =>
    obtain ⟨n, hn, hnm⟩ := List.mem_filterMap.mp hm
    have hc := h.gang c hp
    simp only [Plan.gangChecks, List.forall_mem_cons, Bool.not_eq_false', List.all_eq_true] at hc
    have hs := hc.2.2.1 n hn
    unfold Plan.spillable at hs
    rw [hnm] at hs
    simp only [Bool.and_eq_true] at hs
    exact hs.1
  · cases hm

end Sys2Proof
end

section
/-! The Rating Engine on a valid plan: a column does not fall, discharge rises with the opening, and how the two inverses stand to it
(R31 to R36); the level-storage conversions and their round trips (R37 to R39). -/

namespace Sys2Proof.Machine

theorem length_ints (xs : List Nat) : (ints xs).length = xs.length := List.length_map _

theorem getD_ints (xs : List Nat) (k : Nat) : (ints xs).getD k 0 = (xs.getD k 0 : Int) := by
  unfold ints
  by_cases h : k < xs.length
  · rw [List.getD_eq_getElem _ _ (by simpa using h), List.getD_eq_getElem _ _ h, List.getElem_map]
    rfl
  · rw [List.getD_eq_default _ _ (by simpa using h), List.getD_eq_default _ _ (by omega)]
    rfl

theorem rising_ints {xs : List Nat} (h : xs.Pairwise (· < ·)) : Rising (ints xs) := by
  intro i j hij hj
  rw [length_ints] at hj
  rw [getD_ints, getD_ints, List.getD_eq_getElem _ _ (hij.trans hj), List.getD_eq_getElem _ _ hj]
  exact_mod_cast List.pairwise_iff_getElem.mp h i j (hij.trans hj) hj hij

/-- How the value between two nodes, rounded down, stands to an integer. -/
theorem le_interpDown_iff {x0 x1 y0 y1 x v : Int} (h : x0 < x1) :
    v ≤ interpDown x0 x1 y0 y1 x ↔ (v - y0) * (x1 - x0) ≤ (y1 - y0) * (x - x0) := by
  unfold interpDown
  rw [← Int.le_ediv_iff_mul_le (by omega)]
  omega

/-- How the value between two nodes, rounded up, stands to an integer. -/
theorem interpUp_le_iff {x0 x1 y0 y1 x v : Int} (h : x0 < x1) :
    interpUp x0 x1 y0 y1 x ≤ v ↔ (y1 - y0) * (x - x0) ≤ (v - y0) * (x1 - x0) := by
  unfold interpUp
  have hd : 0 < x1 - x0 := by omega
  have h1 := Int.le_ediv_iff_mul_le (a := y0 - v) (b := -((y1 - y0) * (x - x0))) hd
  have h2 : (y0 - v) * (x1 - x0) = -((v - y0) * (x1 - x0)) := by ring
  rw [h2] at h1
  omega

/-- The value between two nodes, rounded up, lies above the lower node and up to the upper one. -/
theorem interpUp_between {x0 x1 y0 y1 x : Int} (h0 : x0 < x) (h1 : x ≤ x1) (hy : y0 < y1) :
    y0 < interpUp x0 x1 y0 y1 x ∧ interpUp x0 x1 y0 y1 x ≤ y1 := by
  have hx : x0 < x1 := by omega
  constructor
  · by_contra hc
    have := (interpUp_le_iff hx).mp (not_lt.mp hc)
    rw [Int.sub_self, Int.zero_mul] at this
    have := Int.mul_pos (show 0 < y1 - y0 by omega) (show 0 < x - x0 by omega)
    omega
  · rw [interpUp_le_iff hx]
    exact Int.mul_le_mul_of_nonneg_left (by omega) (by omega)

theorem interpUp_mono {x0 x1 y0 y1 x x' : Int} (h : x0 < x1) (hy : y0 ≤ y1) (hx : x ≤ x') :
    interpUp x0 x1 y0 y1 x ≤ interpUp x0 x1 y0 y1 x' := by
  rw [interpUp_le_iff h]
  refine le_trans ?_ ((interpUp_le_iff h).mp (le_refl _))
  exact Int.mul_le_mul_of_nonneg_left (by omega) (by omega)

/-- A column along its openings, as a valid plan's surface gives it: the openings rise from 0 to 1000 and the column does not
fall. -/
structure Column (xs cs : List Int) : Prop where
  rising : Rising xs
  sloping : Sloping cs
  length : cs.length = xs.length
  two : 2 ≤ xs.length
  first : xs.getD 0 0 = 0
  last : xs.getD (xs.length - 1) 0 = 1000
  nonneg : 0 ≤ cs.getD 0 0

section column

variable {xs cs : List Int} (h : Column xs cs)

include h

theorem Column.pos : 0 < xs.length := by have := h.two; omega

theorem Column.discharge_eq (o : Nat) : (columnDischarge xs cs o : Int) = tableAt xs cs ((min o 1000 : Nat) : Int) := by
  unfold columnDischarge
  have h0 : tableAt xs cs 0 = cs.getD 0 0 := by
    rw [← tableAt_node (ys := cs) h.rising h.pos, h.first]
  have h1 := tableAt_mono h.rising h.sloping h.length h.pos (show (0 : Int) ≤ ((min o 1000 : Nat) : Int) by omega)
  have := h.nonneg
  rw [Nat.cast_min] at h1 ⊢
  exact Int.toNat_of_nonneg (by rw [← h0] at this; exact this.trans h1)

theorem Column.discharge_mono {o o' : Nat} (ho : o ≤ o') : columnDischarge xs cs o ≤ columnDischarge xs cs o' := by
  have := tableAt_mono h.rising h.sloping h.length h.pos (show ((min o 1000 : Nat) : Int) ≤ ((min o' 1000 : Nat) : Int) by omega)
  rw [← h.discharge_eq, ← h.discharge_eq] at this
  exact_mod_cast this

theorem Column.discharge_zero : (columnDischarge xs cs 0 : Int) = cs.getD 0 0 := by
  rw [h.discharge_eq, ← tableAt_node (ys := cs) h.rising h.pos, h.first]
  rfl

theorem Column.discharge_full : (columnDischarge xs cs 1000 : Int) = cs.getD (xs.length - 1) 0 := by
  rw [h.discharge_eq]
  exact tableAt_last h.rising h.pos (by rw [h.last]; rfl)

/-- The breakpoints of a column lie in 0..1000. -/
theorem Column.breakpoint {k : Nat} (hk : k < xs.length) : 0 ≤ xs.getD k 0 ∧ xs.getD k 0 ≤ 1000 := by
  have h0 := h.rising.sloping 0 k (Nat.zero_le _) hk
  have h1 := h.rising.sloping k (xs.length - 1) (by omega) (by omega)
  rw [h.first] at h0
  rw [h.last] at h1
  exact ⟨h0, h1⟩

/-- The discharge at an opening within a segment. -/
theorem Column.discharge_segment {o : Nat} {i : Nat} (hi : i + 1 < xs.length) (h0 : xs.getD i 0 ≤ o) (h1 : (o : Int) < xs.getD (i + 1) 0) :
    (columnDischarge xs cs o : Int)
      = interpDown (xs.getD i 0) (xs.getD (i + 1) 0) (cs.getD i 0) (cs.getD (i + 1) 0) o := by
  have := (h.breakpoint hi).2
  rw [h.discharge_eq, show min o 1000 = o by omega]
  exact tableAt_segment h.rising hi h0 h1

/-- The discharge at a breakpoint. -/
theorem Column.discharge_node {o : Nat} {i : Nat} (hi : i < xs.length) (ho : (o : Int) = xs.getD i 0) :
    (columnDischarge xs cs o : Int) = cs.getD i 0 := by
  have := (h.breakpoint hi).2
  rw [h.discharge_eq, show min o 1000 = o by omega, ho]
  exact tableAt_node h.rising hi

/-- The upper inverse by where the discharge lies in the column (R34). -/
theorem Column.upper_cases (z : Int) :
    (z < cs.getD 0 0 ∧ columnUpper xs cs z = 0)
    ∨ (cs.getD (xs.length - 1) 0 ≤ z ∧ columnUpper xs cs z = 1000)
    ∨ ∃ i, i + 1 < xs.length ∧ cs.getD i 0 ≤ z ∧ z < cs.getD (i + 1) 0
        ∧ (columnUpper xs cs z : Int)
          = interpDown (cs.getD i 0) (cs.getD (i + 1) 0) (xs.getD i 0) (xs.getD (i + 1) 0) z := by
  have hlen := h.length
  unfold columnUpper
  rw [headD_eq_getD, getLastD_eq_getD, hlen]
  by_cases h0 : z < cs.getD 0 0
  · exact .inl ⟨h0, if_pos h0⟩
  · by_cases hl : cs.getD (xs.length - 1) 0 ≤ z
    · exact .inr (.inl ⟨hl, by rw [if_neg h0, if_pos hl]; rfl⟩)
    · right; right
      obtain ⟨i, hi, h1, h2⟩ := exists_segment (xs := cs) (x := z) (not_lt.mp h0) (by rw [hlen]; exact not_le.mp hl)
      rw [hlen] at hi
      refine ⟨i, hi, h1, h2, ?_⟩
      have hidx : lastIdx (fun c => decide (c ≤ z)) cs = i := by
        refine lastIdx_eq (by omega) (decide_eq_true h1) fun j hj hjl => decide_eq_false (not_le.mpr ?_)
        exact lt_of_lt_of_le h2 (h.sloping _ _ hj hjl)
      rw [if_neg h0, if_neg hl, hidx]
      have hx := h.rising i (i + 1) (Nat.lt_succ_self _) hi
      have hb := interpDown_le (y0 := xs.getD i 0) (y1 := xs.getD (i + 1) 0) h1 h2.le (lt_of_le_of_lt h1 h2) hx.le
      have := h.breakpoint (k := i) (by omega)
      exact Int.toNat_of_nonneg (by omega)

/-- The lower inverse by where the discharge lies in the column (R35). -/
theorem Column.lower_cases (z : Int) :
    (z ≤ cs.getD 0 0 ∧ columnLower xs cs z = (0, false))
    ∨ (cs.getD (xs.length - 1) 0 < z ∧ columnLower xs cs z = (1000, true))
    ∨ ∃ i, i + 1 < xs.length ∧ cs.getD i 0 < z ∧ z ≤ cs.getD (i + 1) 0 ∧ (columnLower xs cs z).2 = false
        ∧ ((columnLower xs cs z).1 : Int)
          = interpUp (cs.getD i 0) (cs.getD (i + 1) 0) (xs.getD i 0) (xs.getD (i + 1) 0) z := by
  have hlen := h.length
  unfold columnLower
  rw [headD_eq_getD, getLastD_eq_getD, hlen]
  by_cases h0 : z ≤ cs.getD 0 0
  · exact .inl ⟨h0, if_pos h0⟩
  · by_cases hl : cs.getD (xs.length - 1) 0 < z
    · exact .inr (.inl ⟨hl, by rw [if_neg h0, if_pos hl]; rfl⟩)
    · right; right
      obtain ⟨i, hi, h1, h2⟩ := exists_crossing (p := fun i => cs.getD i 0 < z) (not_le.mp h0) hl
      have hidx : lastIdx (fun c => decide (c < z)) cs = i := by
        refine lastIdx_eq (by omega) (decide_eq_true h1) fun j hj hjl => decide_eq_false (not_lt.mpr ?_)
        exact le_trans (not_lt.mp h2) (h.sloping _ _ hj hjl)
      rw [if_neg h0, if_neg hl, hidx]
      have hx := h.rising i (i + 1) (Nat.lt_succ_self _) (by omega)
      have hb := interpUp_between h1 (not_lt.mp h2) hx
      have := h.breakpoint (k := i) (by omega)
      exact ⟨i, by omega, h1, not_lt.mp h2, rfl, Int.toNat_of_nonneg (by omega)⟩

/-- The upper inverse lies in 0..1000. -/
theorem Column.upper_le (z : Int) : columnUpper xs cs z ≤ 1000 := by
  rcases h.upper_cases z with ⟨_, he⟩ | ⟨_, he⟩ | ⟨i, hi, h1, h2, he⟩
  · omega
  · omega
  · have hx := h.rising i (i + 1) (Nat.lt_succ_self _) hi
    have hb := interpDown_le (y0 := xs.getD i 0) (y1 := xs.getD (i + 1) 0) h1 h2.le (lt_of_le_of_lt h1 h2) hx.le
    have := (h.breakpoint hi).2
    omega

/-- The lower inverse lies in 0..1000. -/
theorem Column.lower_le (z : Int) : (columnLower xs cs z).1 ≤ 1000 := by
  rcases h.lower_cases z with ⟨_, he⟩ | ⟨_, he⟩ | ⟨i, hi, h1, h2, _, he⟩
  · rw [he]; omega
  · rw [he]
  · have hx := h.rising i (i + 1) (Nat.lt_succ_self _) hi
    have hb := interpUp_between h1 h2 hx
    have := (h.breakpoint hi).2
    omega

/-- The discharge at the upper inverse does not exceed what was asked (R36). -/
theorem Column.discharge_upper {z : Int} (hz : cs.getD 0 0 ≤ z) : (columnDischarge xs cs (columnUpper xs cs z) : Int) ≤ z := by
  rcases h.upper_cases z with ⟨hc, _⟩ | ⟨hc, he⟩ | ⟨i, hi, h1, h2, he⟩
  · exact absurd hz (not_le.mpr hc)
  · rw [he, h.discharge_full]; exact hc
  · have hx := h.rising i (i + 1) (Nat.lt_succ_self _) hi
    have hlt := lt_of_le_of_lt h1 h2
    have hb := interpDown_le (y0 := xs.getD i 0) (y1 := xs.getD (i + 1) 0) h1 h2.le hlt hx.le
    have hb2 := interpDown_lt (y0 := xs.getD i 0) (y1 := xs.getD (i + 1) 0) h1 h2 hx
    rw [h.discharge_segment hi (by omega) (by omega)]
    by_contra hc
    have h3 := (le_interpDown_iff hx).mp (not_le.mp hc : z + 1 ≤ _)
    have h4 := (le_interpDown_iff hlt).mp he.le
    rw [show (z + 1 - cs.getD i 0) * (xs.getD (i + 1) 0 - xs.getD i 0)
      = (xs.getD (i + 1) 0 - xs.getD i 0) * (z - cs.getD i 0) + (xs.getD (i + 1) 0 - xs.getD i 0) by ring] at h3
    rw [mul_comm (cs.getD (i + 1) 0 - cs.getD i 0)] at h3
    omega

/-- The lower inverse is the least opening whose discharge reaches what was asked, when one does (R36). -/
theorem Column.discharge_lower {z : Int} (hm : (columnLower xs cs z).2 = false) :
    z ≤ columnDischarge xs cs (columnLower xs cs z).1
      ∧ ∀ o < (columnLower xs cs z).1, (columnDischarge xs cs o : Int) < z := by
  rcases h.lower_cases z with ⟨hc, he⟩ | ⟨_, he⟩ | ⟨i, hi, h1, h2, _, he⟩
  · rw [he]
    exact ⟨by rw [h.discharge_zero]; exact hc, fun o ho => absurd ho (Nat.not_lt_zero _)⟩
  · rw [he] at hm; cases hm
  · have hx := h.rising i (i + 1) (Nat.lt_succ_self _) hi
    have hlt := lt_of_lt_of_le h1 h2
    have hb := interpUp_between h1 h2 hx
    have hup := (interpUp_le_iff hlt).mp he.ge
    constructor
    · rcases lt_or_eq_of_le hb.2 with hb2 | hb2
      · rw [h.discharge_segment hi (by omega) (by omega), le_interpDown_iff hx]
        rw [mul_comm, mul_comm (cs.getD (i + 1) 0 - cs.getD i 0)]
        exact hup
      · rw [h.discharge_node hi (he.trans hb2)]
        exact h2
    · intro o ho
      by_cases hoi : (o : Int) < xs.getD i 0
      · obtain ⟨n, hn⟩ := Int.eq_ofNat_of_zero_le (h.breakpoint (k := i) (by omega)).1
        have hmono := h.discharge_mono (show o ≤ n by omega)
        have hnode := h.discharge_node (o := n) (i := i) (by omega) hn.symm
        omega
      · rw [h.discharge_segment hi (not_lt.mp hoi) (by omega)]
        by_contra hc
        have h3 := (le_interpDown_iff hx).mp (not_lt.mp hc)
        have h4 : ((columnLower xs cs z).1 : Int) ≤ o := by
          rw [he, interpUp_le_iff hlt, mul_comm, mul_comm ((o : Int) - _)]
          exact h3
        omega

/-- The unreachable mark says that full stroke does not reach what was asked (R35). -/
theorem Column.unreachable {z : Int} (hm : (columnLower xs cs z).2 = true) :
    (columnLower xs cs z).1 = 1000 ∧ (columnDischarge xs cs 1000 : Int) < z := by
  rcases h.lower_cases z with ⟨_, he⟩ | ⟨hc, he⟩ | ⟨i, _, _, _, hf, _⟩
  · rw [he] at hm; cases hm
  · exact ⟨by rw [he], by rw [h.discharge_full]; exact hc⟩
  · rw [hf] at hm; cases hm

/-- The upper inverse rises with the discharge. -/
theorem Column.upper_mono {z z' : Int} (hz : z ≤ z') : columnUpper xs cs z ≤ columnUpper xs cs z' := by
  rcases h.upper_cases z' with ⟨h0', he'⟩ | ⟨_, he'⟩ | ⟨j, hj, h1', h2', he'⟩
  · rcases h.upper_cases z with ⟨_, he⟩ | ⟨hc, _⟩ | ⟨i, hi, h1, _, _⟩
    · omega
    · have := h.sloping 0 (xs.length - 1) (Nat.zero_le _) (by have := h.two; have := h.length; omega)
      omega
    · have := h.sloping 0 i (Nat.zero_le _) (by have := h.length; omega)
      omega
  · rw [he']; exact h.upper_le z
  · have hxj := h.rising j (j + 1) (Nat.lt_succ_self _) hj
    have hb' := interpDown_le (y0 := xs.getD j 0) (y1 := xs.getD (j + 1) 0) h1' h2'.le (lt_of_le_of_lt h1' h2') hxj.le
    rcases h.upper_cases z with ⟨_, he⟩ | ⟨hc, _⟩ | ⟨i, hi, h1, h2, he⟩
    · omega
    · have := h.sloping (j + 1) (xs.length - 1) (by omega) (by have := h.length; omega)
      omega
    · have hxi := h.rising i (i + 1) (Nat.lt_succ_self _) hi
      have hb := interpDown_le (y0 := xs.getD i 0) (y1 := xs.getD (i + 1) 0) h1 h2.le (lt_of_le_of_lt h1 h2) hxi.le
      rcases Nat.lt_trichotomy i j with hij | rfl | hij
      · have := h.rising.sloping (i + 1) j hij (by omega)
        omega
      · have := interpDown_mono (lt_of_le_of_lt h1 h2) hxi.le hz
        omega
      · have := h.sloping (j + 1) i hij (by have := h.length; omega)
        omega

/-- The lower inverse rises with the discharge. -/
theorem Column.lower_mono {z z' : Int} (hz : z ≤ z') : (columnLower xs cs z).1 ≤ (columnLower xs cs z').1 := by
  rcases h.lower_cases z' with ⟨h0', he'⟩ | ⟨_, he'⟩ | ⟨j, hj, h1', h2', _, he'⟩
  · rcases h.lower_cases z with ⟨_, he⟩ | ⟨hc, _⟩ | ⟨i, hi, h1, _, _⟩
    · rw [he, he']
    · have := h.sloping 0 (xs.length - 1) (Nat.zero_le _) (by have := h.two; have := h.length; omega)
      omega
    · have := h.sloping 0 i (Nat.zero_le _) (by have := h.length; omega)
      omega
  · rw [he']; exact h.lower_le z
  · have hxj := h.rising j (j + 1) (Nat.lt_succ_self _) hj
    have hb' := interpUp_between h1' h2' hxj
    rcases h.lower_cases z with ⟨_, he⟩ | ⟨hc, _⟩ | ⟨i, hi, h1, h2, _, he⟩
    · rw [he]; exact Nat.zero_le _
    · have := h.sloping (j + 1) (xs.length - 1) (by omega) (by have := h.length; omega)
      omega
    · have hxi := h.rising i (i + 1) (Nat.lt_succ_self _) hi
      have hb := interpUp_between h1 h2 hxi
      rcases Nat.lt_trichotomy i j with hij | rfl | hij
      · have := h.rising.sloping (i + 1) j hij (by omega)
        omega
      · have := interpUp_mono (lt_of_lt_of_le h1 h2) hxi.le hz
        omega
      · have := h.sloping (j + 1) i hij (by have := h.length; omega)
        omega

end column

theorem length_openingList_le (e : SurfaceEntry) : e.openingList.length ≤ e.openingCount := List.length_take_le _ _

theorem length_columnAt (sf : SurfaceEntry) (head : Nat) : (columnAt sf head).length = sf.openingList.length := by
  rw [columnAt, List.length_map, List.length_range]

theorem getD_columnAt (sf : SurfaceEntry) (head : Nat) {i : Nat} (hi : i < sf.openingList.length) :
    (columnAt sf head).getD i 0
      = tableAt (ints sf.headList) ((List.range sf.headList.length).map fun j => Int.ofNat (sf.node i j)) head := by
  rw [List.getD_eq_getElem _ _ (by rwa [length_columnAt])]
  simp [columnAt]

/-- The nodes of one opening along the heads. -/
theorem getD_nodes (sf : SurfaceEntry) (n i j : Nat) :
    ((List.range n).map fun j => Int.ofNat (sf.node i j)).getD j 0 = if j < n then (sf.node i j : Int) else 0 := by
  split
  · next h => rw [List.getD_eq_getElem _ _ (by simpa using h)]; simp
  · next h => exact List.getD_eq_default _ _ (by simpa using h)

end Sys2Proof.Machine

namespace Sys2Proof
open Machine

/-- What the checks of a present surface say (R161). -/
structure SurfaceEntry.Sound (e : SurfaceEntry) : Prop where
  openings : Rising (ints e.openingList)
  two : 2 ≤ e.openingList.length
  first : (ints e.openingList).getD 0 0 = 0
  last : (ints e.openingList).getD (e.openingList.length - 1) 0 = 1000
  heads : Rising (ints e.headList)
  oneHead : 0 < e.headList.length
  rows : ∀ j < e.headList.length, ∀ i i', i ≤ i' → i' < e.openingList.length → e.node i j ≤ e.node i' j

theorem node_le_of_nondecreasing {e : SurfaceEntry} {j : Nat} (h : nondecreasing (e.rowList j) = true) {i i' : Nat} (hi : i ≤ i')
    (hi' : i' < e.openingList.length) : e.node i j ≤ e.node i' j := by
  rcases Nat.lt_or_eq_of_le hi with hlt | rfl
  · have hp := List.pairwise_iff_getElem.mp (pairwise_of_nondecreasing h) i i' (by simp [SurfaceEntry.rowList]; omega)
      (by simp [SurfaceEntry.rowList]; omega) hlt
    simpa [SurfaceEntry.rowList] using hp
  · exact le_refl _

theorem Plan.Passes.surfaceSound {p : Plan} (h : p.Passes) {f : SurfaceId} (hp : (p.surfaces.get f).isPresent = true) :
    (p.surfaces.get f).Sound := by
  have hc := h.surface f hp
  simp only [Plan.surfaceChecks, List.forall_mem_cons, Bool.not_eq_false', Bool.and_eq_true, within, decide_eq_true_eq,
    List.all_eq_true, beq_iff_eq] at hc
  generalize p.surfaces.get f = e at hc ⊢
  obtain ⟨⟨⟨⟨h2, h9⟩, h1, h6⟩, _⟩, hinc, ⟨hfirst, hlast⟩, hheads, hrows, _⟩ := hc
  have hol : e.openingList.length = e.openingCount := by
    rw [SurfaceEntry.openingList, List.length_take, e.openings.len]; omega
  have hhl : e.headList.length = e.headCount := by
    rw [SurfaceEntry.headList, List.length_take, e.heads.len]; omega
  refine ⟨rising_ints (pairwise_of_increasing hinc), by omega, ?_, ?_, rising_ints (pairwise_of_increasing hheads), by omega,
    fun j hj i i' hi hi' => node_le_of_nondecreasing (hrows j (List.mem_range.mpr hj)) hi hi'⟩
  · rw [getD_ints]
    cases he : e.openingList with
    | nil => rw [he] at hol; simp at hol; omega
    | cons a l => rw [he] at hfirst; exact congrArg Int.ofNat hfirst
  · rw [getD_ints]
    exact congrArg Int.ofNat ((getLastD_eq_getD _ _).symm.trans hlast)

/-- A present surface of a valid plan gives a column at every head (R31, R161). -/
theorem SurfaceEntry.Sound.column {e : SurfaceEntry} (h : e.Sound) (head : Nat) :
    Column (ints e.openingList) (columnAt e head) := by
  have hlen : (columnAt e head).length = (ints e.openingList).length := by rw [length_columnAt, length_ints]
  have hpos : 0 < (ints e.headList).length := by rw [length_ints]; exact h.oneHead
  refine ⟨h.openings, fun i i' hi hi' => ?_, hlen, by rw [length_ints]; exact h.two, h.first, by rw [length_ints]; exact h.last, ?_⟩
  · rw [length_columnAt] at hi'
    rw [getD_columnAt e head hi', getD_columnAt e head (hi.trans_lt hi')]
    refine tableAt_nodes h.heads hpos (fun j hj => ?_) _
    rw [length_ints] at hj
    rw [getD_nodes, getD_nodes, if_pos hj, if_pos hj]
    exact_mod_cast h.rows j hj i i' hi hi'
  · have h0 : 0 < e.openingList.length := by have := h.two; omega
    rw [getD_columnAt e head h0]
    calc (0 : Int) = tableAt (ints e.headList) ((List.range e.headList.length).map fun _ => (0 : Int)) head := by
          obtain ⟨v, hv⟩ : ∃ v, v = tableAt (ints e.headList) ((List.range e.headList.length).map fun _ => (0 : Int)) head := ⟨_, rfl⟩
          have hz : ∀ k, ((List.range e.headList.length).map fun _ => (0 : Int)).getD k 0 = 0 := by
            intro k
            simp [List.getD_eq_getElem?_getD]
          rcases tableAt_cases h.heads head hpos with ⟨_, he⟩ | ⟨_, he⟩ | ⟨k, _, _, _, he⟩
          · rw [he, hz]
          · rw [he, hz]
          · rw [he, hz, hz]; simp [interpDown]
      _ ≤ _ := by
          refine tableAt_nodes h.heads hpos (fun j hj => ?_) _
          rw [length_ints] at hj
          rw [getD_nodes, if_pos hj]
          simp [List.getD_eq_getElem?_getD, hj]

theorem Plan.Passes.column {p : Plan} (h : p.Passes) {f : SurfaceId} (hp : (p.surfaces.get f).isPresent = true) (head : Nat) :
    Column (ints (p.surfaces.get f).openingList) (columnAt (p.surfaces.get f) head) := (h.surfaceSound hp).column head

end Sys2Proof
end

section
/-! The level-storage conversions of a valid plan and their round trips (R37 to R39). -/

namespace Sys2Proof.Machine

/-- A table of naturals read along straight lines, rounded down. -/
def conversion (xs ys : List Nat) (x : Nat) : Nat := (tableAt (ints xs) (ints ys) x).toNat

theorem storageOf_eq (e : StationEntry) (level : Nat) :
    storageOf e level = conversion (e.pointList.map Point.level) (e.pointList.map Point.storage) level := rfl

theorem levelOf_eq (e : StationEntry) (storage : Nat) :
    levelOf e storage = conversion (e.pointList.map Point.storage) (e.pointList.map Point.level) storage := rfl

/-- Two axes of a table, each rising. -/
structure Axes (xs ys : List Nat) : Prop where
  left : Rising (ints xs)
  right : Rising (ints ys)
  length : xs.length = ys.length
  pos : 0 < xs.length

theorem Axes.swap {xs ys : List Nat} (h : Axes xs ys) : Axes ys xs := ⟨h.right, h.left, h.length.symm, h.length ▸ h.pos⟩

/-- Rounded down, back and forth within a segment: how far the return falls short. `d` is the way into the segment, `s` what the
first conversion gives of it, `m` what comes back. -/
theorem shortfall {dx dy d s m : Int} (hs : s * dx ≤ dy * d) (hs' : dy * d + 1 ≤ (s + 1) * dx) (hm : m * dy ≤ dx * s)
    (hm' : dx * s + 1 ≤ (m + 1) * dy) (hdx : 0 < dx) (hdy : 0 < dy) :
    m ≤ d ∧ (d - m) * dy + 2 ≤ dx + dy ∧ (dx ∣ dy * d → m = d) := by
  have hle : m ≤ d := by
    refine Int.le_of_mul_le_mul_right (a := dy) ?_ hdy
    calc m * dy ≤ dx * s := hm
      _ = s * dx := mul_comm ..
      _ ≤ dy * d := hs
      _ = d * dy := mul_comm ..
  refine ⟨hle, ?_, fun ⟨q, hq⟩ => ?_⟩
  · have h1 : (s + 1) * dx = dx * s + dx := by ring
    have h2 : (m + 1) * dy = m * dy + dy := by ring
    have h3 : (d - m) * dy = dy * d - m * dy := by ring
    omega
  · have hsq : s = q := by
      have h1 : s * dx ≤ q * dx := by rw [mul_comm q, ← hq]; exact hs
      have h2 : q * dx < (s + 1) * dx := by rw [mul_comm q, ← hq]; omega
      have := Int.le_of_mul_le_mul_right h1 hdx
      have := Int.lt_of_mul_lt_mul_right h2 hdx.le
      omega
    have hd : dx * s = d * dy := by rw [hsq, ← hq, mul_comm]
    have : d * dy < (m + 1) * dy := by omega
    have := Int.lt_of_mul_lt_mul_right this hdy.le
    omega

section axes

variable {xs ys : List Nat} (h : Axes xs ys)

include h

theorem Axes.cast (x : Nat) : (conversion xs ys x : Int) = tableAt (ints xs) (ints ys) x := by
  have hpos : 0 < (ints xs).length := by rw [length_ints]; exact h.pos
  have hlow : tableAt (ints xs) (ints ys) (min x ((ints xs).getD 0 0)) ≤ tableAt (ints xs) (ints ys) x :=
    tableAt_mono h.left h.right.sloping (by rw [length_ints, length_ints, h.length]) hpos (min_le_left _ _)
  rw [tableAt_first h.left hpos (min_le_right _ _), getD_ints] at hlow
  exact Int.toNat_of_nonneg (by omega)

theorem Axes.mono {x x' : Nat} (hx : x ≤ x') : conversion xs ys x ≤ conversion xs ys x' := by
  have := tableAt_mono h.left h.right.sloping (by rw [length_ints, length_ints, h.length]) (by rw [length_ints]; exact h.pos)
    (show (x : Int) ≤ x' by omega)
  rw [← h.cast, ← h.cast] at this
  exact_mod_cast this

theorem Axes.node {k : Nat} (hk : k < xs.length) : conversion xs ys (xs.getD k 0) = ys.getD k 0 := by
  have := tableAt_node (ys := ints ys) h.left (k := k) (by rwa [length_ints])
  rw [getD_ints, getD_ints, ← h.cast] at this
  exact_mod_cast this

theorem Axes.step {k : Nat} (hk : k + 1 < xs.length) : (xs.getD k 0 : Int) < xs.getD (k + 1) 0 := by
  have := h.left k (k + 1) (Nat.lt_succ_self _) (by rwa [length_ints])
  rwa [getD_ints, getD_ints] at this

/-- The value within a segment, by the inequalities of its rounding. -/
theorem Axes.segment {k x : Nat} (hk : k + 1 < xs.length) (h0 : xs.getD k 0 ≤ x) (h1 : x < xs.getD (k + 1) 0) :
    ys.getD k 0 ≤ conversion xs ys x ∧ conversion xs ys x < ys.getD (k + 1) 0
      ∧ ((conversion xs ys x : Int) - ys.getD k 0) * (xs.getD (k + 1) 0 - xs.getD k 0)
          ≤ ((ys.getD (k + 1) 0 : Int) - ys.getD k 0) * (x - xs.getD k 0)
      ∧ ((ys.getD (k + 1) 0 : Int) - ys.getD k 0) * (x - xs.getD k 0) + 1
          ≤ ((conversion xs ys x : Int) - ys.getD k 0 + 1) * (xs.getD (k + 1) 0 - xs.getD k 0) := by
  have hstep := h.step hk
  have hystep := h.swap.step (k := k) (by rw [← h.length]; exact hk)
  have hseg := tableAt_segment (ys := ints ys) h.left (x := x) (k := k) (by rwa [length_ints])
    (by rw [getD_ints]; omega) (by rw [getD_ints]; omega)
  rw [← h.cast] at hseg
  simp only [getD_ints] at hseg
  have hle := interpDown_le (y0 := ys.getD k 0) (y1 := ys.getD (k + 1) 0) (show (xs.getD k 0 : Int) ≤ x by omega)
    (show (x : Int) ≤ xs.getD (k + 1) 0 by omega) hstep hystep.le
  have hlt := interpDown_lt (y0 := ys.getD k 0) (y1 := ys.getD (k + 1) 0) (show (xs.getD k 0 : Int) ≤ x by omega)
    (show (x : Int) < xs.getD (k + 1) 0 by omega) hystep
  rw [← hseg] at hle hlt
  refine ⟨by omega, by omega, (le_interpDown_iff hstep).mp hseg.le, ?_⟩
  by_contra hc
  have hmore := (le_interpDown_iff (y0 := ys.getD k 0) (y1 := ys.getD (k + 1) 0) (x := x) (v := conversion xs ys x + 1)
    hstep).mpr (by
      rw [show (conversion xs ys x : Int) + 1 - ys.getD k 0 = conversion xs ys x - ys.getD k 0 + 1 by ring]
      omega)
  omega

/-- The round trip within a segment. -/
theorem Axes.trip {k x : Nat} (hk : k + 1 < xs.length) (h0 : xs.getD k 0 ≤ x) (h1 : x < xs.getD (k + 1) 0) :
    conversion ys xs (conversion xs ys x) ≤ x
      ∧ (x - conversion ys xs (conversion xs ys x)) * (ys.getD (k + 1) 0 - ys.getD k 0) + 2
          ≤ (xs.getD (k + 1) 0 - xs.getD k 0) + (ys.getD (k + 1) 0 - ys.getD k 0)
      ∧ ((xs.getD (k + 1) 0 - xs.getD k 0) ∣ (ys.getD (k + 1) 0 - ys.getD k 0) * (x - xs.getD k 0) →
          conversion ys xs (conversion xs ys x) = x) := by
  have hstep := h.step hk
  have hystep := h.swap.step (k := k) (by rw [← h.length]; exact hk)
  obtain ⟨ha, hb, hs, hs'⟩ := h.segment hk h0 h1
  obtain ⟨_, _, hm, hm'⟩ := h.swap.segment (by rw [← h.length]; exact hk) ha hb
  obtain ⟨hle, hshort, hexact⟩ := shortfall hs hs' hm hm' (by omega) (by omega)
  have hle : conversion ys xs (conversion xs ys x) ≤ x := by omega
  refine ⟨hle, ?_, fun hd => ?_⟩
  · zify [hle, show xs.getD k 0 ≤ xs.getD (k + 1) 0 by omega, show ys.getD k 0 ≤ ys.getD (k + 1) 0 by omega]
    rw [sub_sub_sub_cancel_right] at hshort
    exact hshort
  · have hd : ((xs.getD (k + 1) 0 : Int) - xs.getD k 0) ∣ ((ys.getD (k + 1) 0 : Int) - ys.getD k 0) * (x - xs.getD k 0) := by
      have := Int.natCast_dvd_natCast.mpr hd
      rwa [Nat.cast_mul, Nat.cast_sub (by omega), Nat.cast_sub (by omega), Nat.cast_sub h0] at this
    have := hexact hd
    omega

/-- Within the table the round trip does not rise. -/
theorem Axes.trip_le {x : Nat} (h0 : xs.headD 0 ≤ x) (h1 : x ≤ xs.getLastD 0) : conversion ys xs (conversion xs ys x) ≤ x := by
  rw [headD_eq_getD] at h0
  rw [getLastD_eq_getD] at h1
  rcases Nat.lt_or_eq_of_le h1 with h1 | h1
  · obtain ⟨k, hk, hp, hn⟩ := exists_crossing (p := fun k => xs.getD k 0 ≤ x) h0 (not_le.mpr h1)
    exact (h.trip (by omega) hp (not_le.mp hn)).1
  · have := h.pos
    rw [h1, h.node (by omega), h.swap.node (by rw [← h.length]; omega)]

end axes

end Sys2Proof.Machine

namespace Sys2Proof
open Machine

/-- The level-storage table of a present station of a valid plan (R161). -/
theorem Plan.Passes.axes {p : Plan} (h : p.Passes) {k : StationId} (hp : (p.stations.get k).isPresent = true) :
    Axes ((p.stations.get k).pointList.map Point.level) ((p.stations.get k).pointList.map Point.storage) := by
  have hc := h.station k hp
  simp only [Plan.stationChecks, List.forall_mem_cons, Bool.not_eq_false', Bool.and_eq_true, within, decide_eq_true_eq] at hc
  generalize p.stations.get k = e at hc ⊢
  obtain ⟨⟨⟨⟨⟨⟨_, hcount⟩, _⟩, _⟩, _⟩, _⟩, _, _, _, ⟨hl, hs⟩, _⟩ := hc
  refine ⟨rising_ints (pairwise_of_increasing hl), rising_ints (pairwise_of_increasing hs), by simp, ?_⟩
  rw [List.length_map, StationEntry.pointList, List.length_take, e.points.len]
  omega

/-- The axes of neighbouring points. -/
theorem getD_map_middle {α : Type} (f : α → Nat) (before after : List α) (a b : α) :
    ((before ++ a :: b :: after).map f).getD before.length 0 = f a
      ∧ ((before ++ a :: b :: after).map f).getD (before.length + 1) 0 = f b := by
  simp [List.getD_eq_getElem?_getD]

/-- What a present surface of a valid plan says about its conversions (R32 to R36). -/
theorem SurfaceEntry.Sound.inverses {e : SurfaceEntry} (h : e.Sound) (head : Nat) :
    (∀ o o' : Nat, o ≤ o' → discharge e head o ≤ discharge e head o')
      ∧ (∀ q : Int, (discharge e head 0 : Int) ≤ q → (discharge e head (upperInverse e head q) : Int) ≤ q)
      ∧ (∀ q : Int, q < (discharge e head 0 : Int) → upperInverse e head q = 0)
      ∧ (∀ q : Int, (lowerInverse e head q).2 = false →
          q ≤ (discharge e head (lowerInverse e head q).1 : Int)
          ∧ ∀ o < (lowerInverse e head q).1, (discharge e head o : Int) < q)
      ∧ (∀ q : Int, (lowerInverse e head q).2 = true →
          (lowerInverse e head q).1 = 1000 ∧ (discharge e head 1000 : Int) < q)
      ∧ (∀ q q' : Int, q ≤ q' → upperInverse e head q ≤ upperInverse e head q'
          ∧ (lowerInverse e head q).1 ≤ (lowerInverse e head q').1) := by
  have hc := h.column head
  refine ⟨fun o o' ho => hc.discharge_mono ho, fun q hq => hc.discharge_upper ?_, fun q hq => ?_,
    fun q hq => hc.discharge_lower hq, fun q hq => hc.unreachable hq, fun q q' hq => ⟨hc.upper_mono hq, hc.lower_mono hq⟩⟩
  · exact hc.discharge_zero.symm.trans_le hq
  · rw [discharge, hc.discharge_zero, ← headD_eq_getD] at hq
    exact if_pos hq

/-- Settles O20: the inverses by the segment an argument lies in, the round trips by the two roundings. -/
theorem ratingConversionsAgree : Obligations.RatingConversionsAgree := by
  intro s hs
  have hpass : s.active.Passes := Plan.passes_of_valid hs.1
  refine ⟨fun f head hp => (hpass.surfaceSound hp).inverses head, fun k hp => ?_⟩
  have hax : Axes ((s.stationEntry k).pointList.map Point.level) ((s.stationEntry k).pointList.map Point.storage) :=
    hpass.axes hp
  refine ⟨fun level h0 h1 => hax.trip_le h0 h1, fun st h0 h1 => hax.swap.trip_le h0 h1,
    fun l l' hl => ⟨hax.mono hl, hax.swap.mono hl⟩, fun point hm => ?_, fun before after a b he => ?_⟩
  · obtain ⟨i, hi, rfl⟩ := List.mem_iff_getElem.mp hm
    have hl : ((s.stationEntry k).pointList.map Point.level).getD i 0 = (s.stationEntry k).pointList[i].level := by
      simp [List.getD_eq_getElem?_getD, hi]
    have hst : ((s.stationEntry k).pointList.map Point.storage).getD i 0 = (s.stationEntry k).pointList[i].storage := by
      simp [List.getD_eq_getElem?_getD, hi]
    rw [← hl, ← hst]
    exact ⟨hax.node (by simpa using hi), hax.swap.node (by simpa using hi)⟩
  · have hlen : before.length + 1 < ((s.stationEntry k).pointList.map Point.level).length := by simp [he]
    obtain ⟨hla, hlb⟩ := getD_map_middle Point.level before after a b
    obtain ⟨hsa, hsb⟩ := getD_map_middle Point.storage before after a b
    rw [← he] at hla hlb hsa hsb
    constructor
    · intro level h0 h1
      have := (hax.trip hlen (hla ▸ h0) (hlb ▸ h1)).2
      rwa [hla, hlb, hsa, hsb] at this
    · intro st h0 h1
      have htrip := (hax.swap.trip (by rw [← hax.length]; exact hlen) (hsa ▸ h0) (hsb ▸ h1)).2
      rw [hla, hlb, hsa, hsb, Nat.add_comm (b.storage - a.storage)] at htrip
      exact htrip

end Sys2Proof
end

section
/-! The window clamp on a valid plan (R106 to R108). -/

namespace Sys2Proof.Machine

theorem mem_gatesOf {p : Plan} {k : StationId} {g : Gate} : g ∈ p.gatesOf k ↔ p.boundTo k g = true := by
  rw [Plan.gatesOf, List.mem_filter]
  exact and_iff_right (mem_allFin g)

theorem gatesOf_nodup (p : Plan) (k : StationId) : (p.gatesOf k).Nodup := (allFin_nodup 48).filter _

theorem bound_of_boundTo {p : Plan} {k : StationId} {g : Gate} (h : p.boundTo k g = true) : p.bound g = true :=
  (Bool.and_eq_true _ _ ▸ h).1

/-- The sum over a list that names `g` once is the sum over the others and what `g` gives. -/
theorem sum_filter_ne {α : Type} [DecidableEq α] (f : α → Nat) {xs : List α} (nd : xs.Nodup) {g : α} (hg : g ∈ xs) :
    (xs.map f).sum = ((xs.filter fun h => !(h == g)).map f).sum + f g := by
  induction xs with
  | nil => cases hg
  | cons x xs ih =>
    obtain ⟨hx, nd⟩ := List.nodup_cons.mp nd
    by_cases he : x = g
    · subst he
      have hall : xs.filter (fun h => !(h == x)) = xs := by
        refine List.filter_eq_self.mpr fun a ha => ?_
        have : a ≠ x := fun e => hx (e ▸ ha)
        simpa using this
      rw [List.filter_cons_of_neg (by simp), hall, List.map_cons, List.sum_cons, Nat.add_comm]
    · rw [List.filter_cons_of_pos (by simpa using he), List.map_cons, List.map_cons, List.sum_cons, List.sum_cons,
        ih nd ((List.mem_cons.mp hg).resolve_left (Ne.symm he)), Nat.add_assoc]

/-- The planned outflow is that of the other gates and what the gate gives at its own opening (R48). -/
theorem planned_eq (s : State) {k : StationId} {g : Gate} (h : s.active.boundTo k g = true) :
    s.planned k = s.plannedExcept k (fun h => h == g) + s.rate g (s.headOf k) (s.chan g).plannedOpening := by
  unfold State.planned State.plannedExcept
  simp only [Bool.not_false, List.filter_true]
  exact sum_filter_ne _ (gatesOf_nodup s.active k) (mem_gatesOf.mpr h)

theorem plannedOpening_le {c : Channel} (hg : openingIn c.governed) (hm : openingIn c.measured) : c.plannedOpening ≤ 1000 := by
  unfold Channel.plannedOpening
  cases hc : c.governed with
  | some o => exact hg o hc
  | none =>
    cases hc' : c.measured with
    | some o => exact hm o hc'
    | none => exact Nat.zero_le _

/-- The bounds of the clamp lie to the two sides of the present opening; past it the lower one is the lower inverse of what the
window still asks for, the upper one the upper inverse of what it still admits (R107). -/
theorem clampBounds_eq (s : State) (k : StationId) (g : Gate) {f : SurfaceId} (hf : toFin? 12 (s.gateEntry g).surface = some f) :
    s.clampBounds k g =
      (min (s.chan g).plannedOpening (lowerInverse (s.active.surfaces.get f) (s.headOf k)
          ((s.station k).qmin - (s.plannedExcept k fun h => h == g : Nat))).1,
        max (s.chan g).plannedOpening (upperInverse (s.active.surfaces.get f) (s.headOf k)
          ((s.station k).qmax - (s.plannedExcept k fun h => h == g : Nat))),
        (lowerInverse (s.active.surfaces.get f) (s.headOf k)
          ((s.station k).qmin - (s.plannedExcept k fun h => h == g : Nat))).2) := by
  unfold State.clampBounds
  simp only [hf]

theorem windowClamp_target (s : State) (k : StationId) (g : Gate) (r : Nat) (b : Bool) :
    (s.windowClamp k g r b).1 = min (max r (s.clampBounds k g).1) (s.clampBounds k g).2.1 := rfl

/-- The bounds hold the present opening between them, whatever the gate's surface. -/
theorem clampBounds_around (s : State) (k : StationId) (g : Gate) :
    (s.clampBounds k g).1 ≤ (s.chan g).plannedOpening ∧ (s.chan g).plannedOpening ≤ (s.clampBounds k g).2.1 := by
  unfold State.clampBounds
  simp only
  split
  · exact ⟨le_refl _, le_refl _⟩
  · exact ⟨min_le_left _ _, le_max_left _ _⟩

theorem surface_of_bound {s : State} (h : s.active.Passes) {g : Gate} (hb : s.active.bound g = true) :
    ∃ f, toFin? 12 (s.gateEntry g).surface = some f ∧ (s.active.surfaces.get f).isPresent = true := by
  obtain ⟨f, hf, hp⟩ := (h.gateSound hb).surface
  exact ⟨f, by rw [show (s.gateEntry g).surface = f.1 from hf, toFin?_val], hp⟩

/-- Settles O19: a target past the present opening lies within the inverse of what the window leaves to the gate. -/
theorem clampKeepsTheWindow : Obligations.ClampKeepsTheWindow := by
  intro s k g r ranged hs hb
  obtain ⟨hstore, hopen⟩ := hs
  have hpass : s.active.Passes := Plan.passes_of_valid hstore.1
  obtain ⟨f, hf, hp⟩ := surface_of_bound hpass (bound_of_boundTo hb)
  have hcol := (hpass.surfaceSound hp).inverses (s.headOf k)
  have hrate : ∀ o, s.rate g (s.headOf k) o = discharge (s.active.surfaces.get f) (s.headOf k) o := fun o => by
    unfold State.rate; simp only [hf]
  obtain ⟨hmono, hupper, hbelow, hlower, hunreach, _⟩ := hcol
  obtain ⟨hmeas, hgov, _⟩ := hopen g
  have hpres := plannedOpening_le hgov hmeas
  have hsplit := planned_eq s hb
  simp only [windowClamp_target, clampBounds_eq s k g hf, hrate] at *
  generalize (s.chan g).plannedOpening = present at *
  generalize hzl : ((s.station k).qmin : Int) - (s.plannedExcept k fun h => h == g : Nat) = zl
  generalize hzu : ((s.station k).qmax : Int) - (s.plannedExcept k fun h => h == g : Nat) = zu
  generalize hl : lowerInverse (s.active.surfaces.get f) (s.headOf k) zl = low
  generalize hu : upperInverse (s.active.surfaces.get f) (s.headOf k) zu = up
  refine ⟨by omega, by omega, fun hlt => ?_, fun hlt => ?_, fun he => by rw [he, hsplit]⟩
  · have hup : min (max r (min present low.1)) (max present up) ≤ up := by omega
    have hz : (discharge (s.active.surfaces.get f) (s.headOf k) 0 : Int) ≤ zu := by
      by_contra hc
      have := hbelow zu (not_le.mp hc)
      omega
    have h1 := hupper zu hz
    have h2 := hmono _ _ hup
    rw [hu] at h1
    omega
  · have hlow : low.1 ≤ min (max r (min present low.1)) (max present up) := by omega
    have hr : low.2 = false := by
      by_contra hc
      have := (hunreach zl (by rw [hl]; simpa using hc)).1
      rw [hl] at this
      omega
    have h1 := (hlower zl (by rw [hl]; exact hr)).1
    have h2 := hmono _ _ hlow
    rw [hl] at h1
    omega

end Sys2Proof.Machine
end

section
/-! Every opening a channel holds stays in 0..1000. -/

namespace Sys2Proof.Machine

/-- A step upwards stops at the goal, the step size and the cap (R12). -/
theorem stepToward_up {e : GateEntry} {cap : Option Nat} {floor : Option Int} {o goal u : Nat}
    (h : stepToward e (cap, floor) o goal = some u) (hlt : o < goal) :
    o < u ∧ u ≤ goal ∧ u ≤ o + e.stepUp ∧ (∀ c, cap = some c → u ≤ c) ∧ (u = goal ∨ u = o + e.stepUp ∨ cap = some u) := by
  unfold stepToward at h
  rw [if_pos hlt] at h
  cases cap with
  | none =>
    simp only [Option.ite_none_right_eq_some, Option.some.injEq] at h
    exact ⟨by omega, by omega, by omega, nofun, by omega⟩
  | some cap =>
    simp only [Option.ite_none_right_eq_some, Option.some.injEq] at h ⊢
    exact ⟨by omega, by omega, by omega, fun c hc => by omega, by omega⟩

/-- A step downwards stops at the goal, the step size and the floor (R12). -/
theorem stepToward_down {e : GateEntry} {cap : Option Nat} {floor : Option Int} {o goal u : Nat}
    (h : stepToward e (cap, floor) o goal = some u) (hle : goal ≤ o) :
    u < o ∧ goal ≤ u ∧ o ≤ u + e.stepDown ∧ (∀ f, floor = some f → f ≤ (u : Int))
      ∧ (u = goal ∨ u + e.stepDown = o ∨ floor = some (u : Int)) := by
  unfold stepToward at h
  rw [if_neg (not_lt.mpr hle)] at h
  cases floor with
  | none =>
    simp only [Option.ite_none_right_eq_some, Option.some.injEq] at h
    exact ⟨by omega, by omega, by omega, nofun, by omega⟩
  | some floor =>
    simp only [Option.ite_none_right_eq_some, Option.some.injEq] at h ⊢
    exact ⟨by omega, by omega, by omega, fun f hf => by omega, by omega⟩

/-- Settles O28: by the direction of the step. -/
theorem stepTargetKeepsItsBounds : Obligations.StepTargetKeepsItsBounds :=
  fun _ _ _ _ _ _ h => ⟨stepToward_up h, stepToward_down h⟩

/-- Every opening of a channel's record lies in 0..1000. -/
def Channel.OpeningsIn (c : Channel) : Prop :=
  openingIn c.measured ∧ openingIn c.governed ∧ openingIn c.state.stepTarget ∧ openingIn c.start

theorem openingIn_none : openingIn none := nofun

theorem openingIn_some {o : Nat} (h : o ≤ 1000) : openingIn (some o) := by
  rintro _ ⟨⟩
  exact h

/-- A channel with work takes a step target between two openings it holds. -/
theorem workTarget_le {s : State} {g : Gate} {target : Nat} (h : (s.chan g).OpeningsIn) (hw : s.workTarget g = some target) :
    target ≤ 1000 := by
  obtain ⟨hm, hg, _, _⟩ := h
  unfold State.workTarget at hw
  rw [Option.ite_none_right_eq_some] at hw
  have hc := hw.2
  unfold State.cappedStep at hc
  split at hc
  · next goal o eg em =>
    have hgoal := hg goal eg
    have ho := hm o em
    rcases Nat.lt_or_ge o goal with hlt | hle
    · have := stepToward_up hc hlt
      omega
    · have := stepToward_down hc hle
      omega
  · cases hc

theorem Channel.OpeningsIn.inState {c : Channel} (h : c.OpeningsIn) {st : ChanState} (hs : st.stepTarget = none) :
    (c.inState st).OpeningsIn := by
  obtain ⟨hm, hg, _, hst⟩ := h
  exact ⟨hm, hg, hs ▸ openingIn_none, hst⟩

theorem Channel.OpeningsIn.given {c : Channel} (h : c.OpeningsIn) {o : Nat} (ho : o ≤ 1000) (src : Source) (mark : ClampMark)
    (pend : Bool) : (c.given (some o) src mark pend).OpeningsIn := by
  obtain ⟨hm, _, ht, hst⟩ := h
  exact ⟨hm, openingIn_some ho, ht, hst⟩

theorem Channel.OpeningsIn.withPosition {c : Channel} (h : c.OpeningsIn) {o : Nat} (ho : o ≤ 1000) :
    (c.withPosition o).OpeningsIn := by
  obtain ⟨_, hg, ht, hst⟩ := h
  exact ⟨openingIn_some ho, hg, ht, hst⟩

/-- The channel after the start of an increment. -/
theorem Channel.OpeningsIn.started {c : Channel} (h : c.OpeningsIn) {target : Nat} (ht : target ≤ 1000) (n tag : Nat) (d : Dir) :
    ({ c with state := .step target n, tag := tag, start := c.measured, dwellDir := some d,
              silencePending := c.silencePending } : Channel).OpeningsIn := by
  obtain ⟨hm, hg, _, _⟩ := h
  exact ⟨hm, hg, openingIn_some ht, hm⟩

theorem stepTarget_tick (st : ChanState) : st.tick.stepTarget = st.stepTarget := by
  cases st with
  | dwell own => cases own <;> rfl
  | _ => rfl

theorem Channel.OpeningsIn.tick {c : Channel} (h : c.OpeningsIn) (limit : Nat) : (c.tick limit).OpeningsIn := by
  obtain ⟨hm, hg, ht, hst⟩ := h
  have ht' : openingIn (c.tick limit).state.stepTarget := by rwa [channel_tick_state, stepTarget_tick]
  unfold Channel.OpeningsIn
  refine ⟨?_, ?_, ht', ?_⟩ <;> unfold Channel.tick <;> simp only <;> split <;> assumption

theorem Channel.OpeningsIn.resetAs {st : ChanState} (hs : st.stepTarget = none) : (Channel.resetAs st).OpeningsIn :=
  ⟨openingIn_none, openingIn_none, hs ▸ openingIn_none, openingIn_none⟩

theorem Channel.OpeningsIn.atCommit {c : Channel} (h : c.OpeningsIn) (old new : Option Binding) :
    (c.atCommit old new).OpeningsIn := by
  unfold Channel.atCommit
  split
  · exact h
  · exact Channel.OpeningsIn.resetAs rfl
  · exact Channel.OpeningsIn.resetAs rfl
  · split
    · exact h
    · obtain ⟨hm, _, _, hst⟩ := h
      exact ⟨hm, openingIn_none, openingIn_none, hst⟩

/-- ACTIVE and the retained copy pass every check (R152, R153). -/
def PlanStore.PlansValid (r : PlanStore) : Prop := r.active.valid = true ∧ r.retained.plan.valid = true

theorem PlanStore.PlansValid.moved {old new : PlanStore} (h : old.PlansValid) (m : StoreMoves old new) : new.PlansValid := by
  unfold PlanStore.PlansValid
  rw [m.active, m.retained]
  exact h

theorem PlanStore.PlansValid.afterReset {r : PlanStore} (h : r.PlansValid) : r.afterReset.PlansValid := by
  refine ⟨?_, h.2⟩
  show (if r.retained.agrees then r.retained.plan else Plan.empty).valid = true
  split
  · exact h.2
  · exact empty_valid

/-- What keeps the openings in range: valid plans and the channels' records. -/
def OpeningsHeld (s : State) : Prop := s.store.PlansValid ∧ ∀ g, (s.chan g).OpeningsIn

theorem openingsSound_iff (s : State) : OpeningsSound s ↔ StoreSound s ∧ OpeningsHeld s :=
  ⟨fun h => ⟨h.1, ⟨h.1.1, h.1.2.1⟩, h.2⟩, fun h => ⟨h.1, h.2.2⟩⟩

theorem OpeningsHeld.of_chans {s t : State} (h : OpeningsHeld s) (hs : t.store.PlansValid) (hc : t.chans = s.chans) :
    OpeningsHeld t := ⟨hs, fun g => by unfold State.chan; rw [hc]; exact h.2 g⟩

theorem OpeningsHeld.write {s t : State} (h : OpeningsHeld s) (hs : t.store = s.store) (g : Gate)
    (hg : (s.chan g).OpeningsIn → (t.chan g).OpeningsIn) (ho : ∀ x, x ≠ g → t.chan x = s.chan x) : OpeningsHeld t :=
  ⟨hs ▸ h.1, fun x => by
    by_cases hx : x = g
    · exact hx ▸ hg (h.2 g)
    · rw [ho x hx]; exact h.2 x⟩

theorem clampTo_le {r lo hi b : Nat} (hr : r ≤ b) (hl : lo ≤ b) : min (max r lo) hi ≤ b := by omega

/-- A request of the schedule of a valid plan lies in 0..1000 (R161). -/
theorem sched_opening_le {p : Plan} (h : p.Passes) {n : Fin 32} (hp : (p.sched.get n).isPresent = true) :
    (p.sched.get n).opening ≤ 1000 := by
  have hc := h.sched n hp
  simp only [Plan.schedChecks, List.forall_mem_cons, Bool.or_eq_false_iff, Bool.not_eq_false', within, Bool.and_eq_true,
    decide_eq_true_eq] at hc
  obtain ⟨_, ⟨⟨_, hopen⟩, _⟩, _⟩ := hc
  exact hopen.2

/-- The writes of the channels keep the openings in range. -/
theorem writes_openingsHeld : Writes (· ≤ 1000) OpeningsHeld where
  frame s t hc _ hs h := h.of_chans (hs ▸ h.1) hc
  start s g target hw h := h.write (quiet_store.startIncrement ..) g
    (fun hg => by rw [startIncrement_chan, if_pos rfl]; exact hg.started (workTarget_le (h.2 g) hw) ..)
    fun x hx => by rw [startIncrement_chan, if_neg hx]
  enter s g st _ _ hst h := h.write (quiet_store.enter ..) g (fun hg => by rw [enter_chan_self]; exact hg.inState hst)
    fun x hx => enter_chan_ne _ _ hx
  given s g o src mark pend _ ho h := h.write rfl g (fun hg => by rw [chan_setChan_self]; exact hg.given ho ..)
    fun x hx => chan_setChan_ne _ _ hx
  placed s g o _ ho h := h.write rfl g (fun hg => by rw [chan_setChan_self]; exact hg.withPosition ho)
    fun x hx => chan_setChan_ne _ _ hx
  marked s g c hst hm hg hs h := h.write rfl g (fun hin => by
      rw [chan_setChan_self]
      unfold Channel.OpeningsIn
      rw [hst, hm, hg, hs]
      exact hin) fun x hx => chan_setChan_ne _ _ hx
  ticked s h := ⟨h.1, fun g => by rw [tick_chan]; exact Channel.OpeningsIn.tick (h.2 g) _⟩
  advance s k _ _ f h := h.of_chans ((calm_store.advanceLine ..).symm ▸ h.1) (advanceLine_chans ..)
  reseed s k f c _ h := h.of_chans ((calm_store.reseed ..).symm ▸ h.1) (reseed_chans ..)
  store s r m h := h.of_chans (h.1.moved m) rfl
  reset s kind h := ⟨by rw [resetAll_store]; exact h.1.afterReset, fun g => by
    rw [resetAll_chan]
    unfold channelReset
    exact Channel.OpeningsIn.resetAs (by split <;> rfl)⟩
  full o := min_le_right _ _
  zero := Nat.zero_le _
  clamped s k g o b h ho := by
    obtain ⟨hm, hg, _, _⟩ := h.2 g
    rw [windowClamp_target]
    exact clampTo_le ho ((clampBounds_around s k g).1.trans (plannedOpening_le hg hm))
  filled s c m f head z h hmem hf := by
    have hpass : s.active.Passes := Plan.passes_of_valid h.1.1
    obtain ⟨f', hf', hp⟩ := surface_of_bound hpass (hpass.member_bound hmem)
    obtain rfl : f' = f := Option.some.inj (hf'.symm.trans hf)
    exact (hpass.column hp head).lower_le z
  fallback s g o h hb hf := ((Plan.passes_of_valid h.1.1).gateSound hb).fallback o hf
  sched s n h hp := sched_opening_le (Plan.passes_of_valid h.1.1) hp

/-- A COMMIT makes a plan that passed the checks ACTIVE and brings each channel to its entry. -/
theorem steady_openingsHeld : Steady (· ≤ 1000) OpeningsHeld where
  toWrites := writes_openingsHeld
  commit s _ hf h := by
    have hv : s.store.planPending.valid = true := by simpa [Plan.valid] using hf
    have hhead : OpeningsHeld (forEach (allFin 5) (fun k t => t.commitReach s.active k)
        ((forEach (allFin 48) (fun g t => t.commitChannel s.active g)
          (s.setStore { s.store with active := s.store.planPending })).commitStations s.active)) := by
      refine ⟨by rw [commitHead_store]; exact ⟨hv, h.1.2⟩, fun g => ?_⟩
      rw [commitHead_chan]
      split
      · exact h.2 g
      · exact Channel.OpeningsIn.atCommit (h.2 g) _ _
    unfold State.commitPlan
    refine writes_openingsHeld.notify _ _ _ _ (OpeningsHeld.of_chans (s :=
      (s.setStore { s.store with active := s.store.planPending }).takePlan s.active) ?_ ?_ rfl)
    · rw [takePlan_eq]
      exact writes_openingsHeld.planTail _ hhead
    · refine ⟨?_, hv⟩
      show (State.store (State.takePlan _ _)).active.valid = true
      rw [calm_store.takePlan]
      exact hv

/-- Settles O60: a request is clamped between openings in range, a step goes from one to another, and plans that pass the checks
name no opening beyond. -/
theorem stepsKeepTheOpenings : Obligations.StepsKeepTheOpenings := fun s t h hs => by
  rw [openingsSound_iff] at h ⊢
  exact ⟨steady_storeSound.step h.1 hs, steady_openingsHeld.step h.2 hs⟩

end Sys2Proof.Machine
end

section
/-! Reach lines: the water a minute moves (R64 to R69, R74), and each line at its travel time. -/

namespace Sys2Proof.Machine

theorem lineMinutes_append (xs ys : List Parcel) : lineMinutes (xs ++ ys) = lineMinutes xs + lineMinutes ys := by
  simp [lineMinutes]

theorem lineVolume_append (xs ys : List Parcel) : lineVolume (xs ++ ys) = lineVolume xs + lineVolume ys := by
  simp [lineVolume]

theorem lineMinutes_singleton (p : Parcel) : lineMinutes [p] = p.minutes := List.sum_singleton

theorem lineVolume_singleton (p : Parcel) : lineVolume [p] = p.flow * p.minutes := List.sum_singleton

/-- Dropping the front minute of a line takes that minute's flow off its volume. -/
theorem dropFront_account {line : List Parcel} (hp : ∀ p ∈ line, 1 ≤ p.minutes) (hne : line ≠ []) :
    lineVolume (dropFront line) + nextArrival line = lineVolume line
      ∧ lineMinutes (dropFront line) + 1 = lineMinutes line := by
  cases line with
  | nil => exact absurd rfl hne
  | cons p ps =>
    have h1 := hp p (List.mem_cons_self ..)
    simp only [dropFront, nextArrival, lineVolume, lineMinutes]
    split
    · next h =>
      have : p.minutes = 1 := by omega
      simp only [List.map_cons, List.sum_cons, this]
      omega
    · simp only [List.map_cons, List.sum_cons]
      obtain ⟨m, hm⟩ : ∃ m, p.minutes = m + 1 := ⟨p.minutes - 1, by omega⟩
      rw [hm, Nat.add_sub_cancel, Nat.mul_succ]
      omega

theorem length_dropFront_le (line : List Parcel) : (dropFront line).length ≤ line.length := by
  cases line with
  | nil => exact le_refl _
  | cons p ps =>
    rw [dropFront]
    split
    · exact Nat.le_succ _
    · exact le_refl _

theorem dropFront_minutes {line : List Parcel} (hp : ∀ p ∈ line, 1 ≤ p.minutes) : ∀ p ∈ dropFront line, 1 ≤ p.minutes := by
  cases line with
  | nil => exact hp
  | cons x xs =>
    intro p hmem
    rw [dropFront] at hmem
    split at hmem
    · exact hp p (List.mem_cons_of_mem _ hmem)
    · next h =>
      rcases List.mem_cons.mp hmem with rfl | hmem
      · show 1 ≤ x.minutes - 1
        omega
      · exact hp p (List.mem_cons_of_mem _ hmem)

/-- A minute appended adds its water but for what a fold drops, and one minute (R66, R67). -/
theorem appendMinute_account (line : List Parcel) (q : Nat) :
    ∃ dropped, lineVolume (appendMinute line q).1 + dropped = lineVolume line + q
      ∧ lineMinutes (appendMinute line q).1 = lineMinutes line + 1
      ∧ ((appendMinute line q).2 = false → dropped = 0)
      ∧ ∀ y, line.getLast? = some y → dropped ≤ y.minutes := by
  obtain rfl | ⟨older, y, rfl⟩ := List.eq_nil_or_concat' line
  · rw [appendMinute_nil]
    exact ⟨0, by simp [lineVolume], by simp [lineMinutes], fun _ => rfl, nofun⟩
  · rw [appendMinute_concat, List.getLast?_concat]
    split
    · next h =>
      refine ⟨0, ?_, ?_, fun _ => rfl, fun _ _ => Nat.zero_le _⟩
      · simp only [lineVolume_append, lineVolume_singleton, h.1, Nat.mul_succ]
        omega
      · simp only [lineMinutes_append, lineMinutes_singleton]
        omega
    · split
      · refine ⟨0, ?_, ?_, fun _ => rfl, fun _ _ => Nat.zero_le _⟩
        · simp only [lineVolume_append, lineVolume_singleton]
          omega
        · simp only [lineMinutes_append, lineMinutes_singleton]
      · refine ⟨(y.flow * y.minutes + q) % (y.minutes + 1), ?_, ?_, nofun, ?_⟩
        · simp only [lineVolume_append, lineVolume_singleton]
          have := Nat.div_add_mod (y.flow * y.minutes + q) (y.minutes + 1)
          rw [Nat.mul_comm] at this
          omega
        · simp only [lineMinutes_append, lineMinutes_singleton]
          omega
        · rintro _ ⟨⟩
          exact Nat.lt_succ_iff.mp (Nat.mod_lt _ (Nat.succ_pos _))

theorem length_appendMinute_le {line : List Parcel} {q : Nat} (h : line.length ≤ 96) : (appendMinute line q).1.length ≤ 96 := by
  obtain rfl | ⟨older, y, rfl⟩ := List.eq_nil_or_concat' line
  · rw [appendMinute_nil]
    exact Nat.le_of_ble_eq_true rfl
  · rw [List.length_append, List.length_singleton] at h
    rw [appendMinute_concat]
    split
    · rw [List.length_append, List.length_singleton]
      exact h
    · split
      · next hlt => rw [List.length_append, List.length_singleton]; exact hlt
      · rw [List.length_append, List.length_singleton]
        exact h

theorem appendMinute_minutes {line : List Parcel} (q : Nat) (hp : ∀ p ∈ line, 1 ≤ p.minutes) :
    ∀ p ∈ (appendMinute line q).1, 1 ≤ p.minutes := by
  obtain rfl | ⟨older, y, rfl⟩ := List.eq_nil_or_concat' line
  · rw [appendMinute_nil]
    simp
  · have hold : ∀ p ∈ older, 1 ≤ p.minutes := fun p h => hp p (List.mem_append_left _ h)
    have hy : 1 ≤ y.minutes := hp y (by simp)
    rw [appendMinute_concat]
    split
    · simpa [or_imp, forall_and] using hold
    · split
      · simpa [or_imp, forall_and] using ⟨hold, hy⟩
      · simpa [or_imp, forall_and] using hold

/-- The look-ahead sum is the flow of the first minutes (R68). -/
theorem lookAhead_eq (line : List Parcel) (h : Nat) :
    lookAhead line h = ((line.flatMap fun p => List.replicate p.minutes p.flow).take h).sum := by
  induction line generalizing h with
  | nil => simp [lookAhead]
  | cons p ps ih =>
    rw [lookAhead, ih, List.flatMap_cons, List.take_append, List.sum_append, List.length_replicate, List.take_replicate,
      List.sum_replicate, smul_eq_mul, Nat.mul_comm, Nat.min_comm]

/-- Settles O40: the front minute off, the new one on, and the first minutes read out. -/
theorem lineConservesAndLooksAhead : Obligations.LineConservesAndLooksAhead := by
  refine ⟨fun line q hp hne => ?_, lookAhead_eq, fun _ _ _ _ => rfl⟩
  obtain ⟨hvol, hmin⟩ := dropFront_account hp hne
  obtain ⟨dropped, hvol', hmin', hzero, hle⟩ := appendMinute_account (dropFront line) q
  exact ⟨dropped, by omega, by omega, hzero, hle⟩

/-- A line at its travel time (R64). -/
structure LineAt (line : List Parcel) (tau : Nat) : Prop where
  minutes : lineMinutes line = tau
  length : line.length ≤ 96
  each : ∀ p ∈ line, 1 ≤ p.minutes

theorem lineSound_iff (s : State) (k : ReachId) :
    LineSound s k ↔ ((s.reachEntry k).isPresent = true → LineAt (s.reach k).line (s.reachEntry k).tau) :=
  ⟨fun h hp => ⟨(h hp).1, (h hp).2.1, (h hp).2.2⟩, fun h hp => ⟨(h hp).minutes, (h hp).length, (h hp).each⟩⟩

theorem LineAt.oneParcel {tau : Nat} (h : 1 ≤ tau) (flow : Nat) : LineAt (oneParcel flow tau) tau :=
  ⟨lineMinutes_singleton _, Nat.le_of_ble_eq_true rfl, by simpa [Machine.oneParcel] using h⟩

theorem LineAt.minute {line : List Parcel} {tau : Nat} (h : LineAt line tau) (ht : 1 ≤ tau) (q : Nat) :
    LineAt (appendMinute (dropFront line) q).1 tau := by
  have hne : line ≠ [] := by
    rintro rfl
    have : 0 = tau := h.minutes
    omega
  obtain ⟨_, hmin⟩ := dropFront_account h.each hne
  obtain ⟨_, _, hmin', _, _⟩ := appendMinute_account (dropFront line) q
  refine ⟨by have := h.minutes; omega, length_appendMinute_le ((length_dropFront_le line).trans h.length), ?_⟩
  exact appendMinute_minutes q (dropFront_minutes h.each)

/-- The travel time of a present reach of a valid plan (R161). -/
theorem tau_pos {p : Plan} (h : p.Passes) {k : ReachId} (hp : (p.reaches.get k).isPresent = true) :
    1 ≤ (p.reaches.get k).tau := by
  have hc := h.reach k
  simp only [Plan.reachChecks, List.forall_mem_cons, hp, Bool.true_and, within, Bool.not_eq_false', Bool.and_eq_true,
    decide_eq_true_eq] at hc
  exact hc.1.1

/-- A minute of a reach's own line writes that line and its coarse count (R65). -/
theorem advanceLine_reach (s : State) (k j : ReachId) (q : Nat) :
    (s.advanceLine k q).reach j = if j = k then
      { s.reach k with
        line := (appendMinute (dropFront (s.reach k).line) q).1
        coarse := if (appendMinute (dropFront (s.reach k).line) q).2 then countUp (s.reach k).coarse else (s.reach k).coarse }
    else s.reach j := by
  unfold State.advanceLine
  simp only
  generalize appendMinute (dropFront (s.reach k).line) q = r
  obtain ⟨line, folded⟩ := r
  cases folded with
  | false => exact reach_setReach ..
  | true =>
    show (State.notify _ _ _ _ _).reaches.get j = _
    rw [quiet_reaches.notify]
    exact reach_setReach ..

theorem reseed_reach (s : State) (k j : ReachId) (flow : Nat) (c : ReseedCause) :
    (s.reseed k flow c).reach j = if j = k then
      { s.reach k with line := oneParcel flow (s.reachEntry k).tau, unseeded := false } else s.reach j := by
  unfold State.reseed
  show (State.notify _ _ _ _ _).reaches.get j = _
  rw [quiet_reaches.notify]
  exact reach_setReach ..

/-- A reach at a commit (R72), from its old and its new entry and the outflow of the station above. -/
def Reach.atCommit (r : Reach) (old new : ReachEntry) (flow : Nat) : Reach :=
  if old.isPresent && new.isPresent then
    if old.tau = new.tau then r
    else if r.unseeded then { r with line := oneParcel 0 new.tau }
    else { r with line := oneParcel flow new.tau, unseeded := false }
  else if new.isPresent then Reach.resetWith new.tau
  else if old.isPresent then Reach.absent
  else r

theorem commitReach_reach (s : State) (old : Plan) (k j : ReachId) :
    (s.commitReach old k).reach j = if j = k then
      (s.reach k).atCommit (old.reaches.get k) (s.reachEntry k) (s.station (upperOf k)).qOut else s.reach j := by
  unfold State.commitReach Reach.atCommit
  simp only
  split
  · split
    · split
      · next e => rw [e]
      · rfl
    · split
      · exact reach_setReach ..
      · exact reseed_reach ..
  · split
    · exact reach_setReach ..
    · split
      · exact reach_setReach ..
      · split
        · next e => rw [e]
        · rfl

theorem commitReach_stations (s : State) (old : Plan) (k : ReachId) : (s.commitReach old k).stations = s.stations := by
  unfold State.commitReach State.reseed
  simp only
  split
  · split
    · rfl
    · split
      · rfl
      · exact quiet_stations.notify ..
  · split
    · rfl
    · split <;> rfl

theorem LineAt.atCommit {r : Reach} {old new : ReachEntry} (flow : Nat) (h : old.isPresent = true → LineAt r.line old.tau)
    (hn : new.isPresent = true) (ht : 1 ≤ new.tau) : LineAt (r.atCommit old new flow).line new.tau := by
  unfold Reach.atCommit
  split
  · next hb =>
    rw [Bool.and_eq_true] at hb
    split
    · next e => exact e ▸ h hb.1
    · split
      · exact LineAt.oneParcel ht 0
      · exact LineAt.oneParcel ht flow
  · exact LineAt.oneParcel ht 0

/-- What keeps the lines: valid plans, and each line at its travel time. -/
def LinesHeld (s : State) : Prop := s.store.PlansValid ∧ ∀ k, LineSound s k

theorem linesSound_iff (s : State) : LinesSound s ↔ StoreSound s ∧ LinesHeld s :=
  ⟨fun h => ⟨h.1, ⟨h.1.1, h.1.2.1⟩, h.2⟩, fun h => ⟨h.1, h.2.2⟩⟩

theorem LinesHeld.of_same {s t : State} (h : LinesHeld s) (hs : t.store = s.store) (hr : t.reaches = s.reaches) : LinesHeld t := by
  unfold LinesHeld LineSound State.reach State.reachEntry State.active at *
  rw [hs, hr]
  exact h

theorem LinesHeld.write {s t : State} (h : LinesHeld s) (hs : t.store = s.store) (k : ReachId)
    (hk : (s.reachEntry k).isPresent = true → LineAt (s.reach k).line (s.reachEntry k).tau →
      LineAt (t.reach k).line (s.reachEntry k).tau) (ho : ∀ j, j ≠ k → t.reach j = s.reach j) : LinesHeld t := by
  refine ⟨hs ▸ h.1, fun j => ?_⟩
  have he : t.reachEntry j = s.reachEntry j := by unfold State.reachEntry State.active; rw [hs]
  have hj := (lineSound_iff s j).mp (h.2 j)
  rw [lineSound_iff, he]
  intro hp
  by_cases hjk : j = k
  · subst hjk
    exact hk hp (hj hp)
  · rw [ho j hjk]
    exact hj hp

/-- The writes of the reaches keep each line at its travel time. -/
theorem writes_linesHeld : Writes (fun _ => True) LinesHeld where
  frame s t _ hr hs h := h.of_same hs hr
  start _ _ _ _ h := h.of_same (quiet_store.startIncrement ..) (quiet_reaches.startIncrement ..)
  enter _ _ _ _ _ _ h := h.of_same (quiet_store.enter ..) (quiet_reaches.enter ..)
  given _ _ _ _ _ _ _ _ h := h.of_same rfl rfl
  placed _ _ _ _ _ h := h.of_same rfl rfl
  marked _ _ _ _ _ _ _ h := h.of_same rfl rfl
  ticked _ h := h.of_same rfl rfl
  advance s k _ _ f h := h.write (calm_store.advanceLine ..) k
    (fun hp hl => by
      rw [advanceLine_reach, if_pos rfl]
      exact hl.minute (tau_pos (Plan.passes_of_valid h.1.1) hp) f)
    fun j hj => by rw [advanceLine_reach, if_neg hj]
  reseed s k f c _ h := h.write (calm_store.reseed ..) k
    (fun hp _ => by
      rw [reseed_reach, if_pos rfl]
      exact LineAt.oneParcel (tau_pos (Plan.passes_of_valid h.1.1) hp) f)
    fun j hj => by rw [reseed_reach, if_neg hj]
  store s r m h := ⟨h.1.moved m, fun k => by
    have := h.2 k
    unfold LineSound State.reachEntry State.active at *
    rw [setStore_store, m.active]
    exact this⟩
  reset s kind h := by
    have hstore : (s.resetAll kind).store.PlansValid := by rw [resetAll_store]; exact h.1.afterReset
    have hreach : (s.resetAll kind).reaches = s.blocksReset.reaches := by
      unfold State.resetAll
      simp only
      split <;> simp only [quiet_reaches.notify]
    have hactive : (s.resetAll kind).active = s.store.restored := congrArg PlanStore.active (resetAll_store s kind)
    refine ⟨hstore, fun k => (lineSound_iff _ k).mpr ?_⟩
    unfold State.reach State.reachEntry
    rw [hreach, hactive]
    intro hp
    show LineAt ((Tab.gen fun k => reachReset (s.store.restored.reaches.get k)).get k).line _
    rw [Tab.get_gen]
    unfold reachReset
    rw [if_pos hp]
    exact LineAt.oneParcel (tau_pos (Plan.passes_of_valid (hactive ▸ hstore.1)) hp) 0
  full _ := trivial
  zero := trivial
  clamped _ _ _ _ _ _ _ := trivial
  filled _ _ _ _ _ _ _ _ _ := trivial
  fallback _ _ _ _ _ _ := trivial
  sched _ _ _ _ := trivial

/-- The reaches behind the channel, station and reach parts of a COMMIT, from the outflow of the station above each. -/
theorem commitHead_reach (s : State) (old : Plan) (k : ReachId) :
    (forEach (allFin 5) (fun k s => s.commitReach old k)
      ((forEach (allFin 48) (fun g s => s.commitChannel old g) s).commitStations old)).reach k
      = (s.reach k).atCommit (old.reaches.get k) (s.reachEntry k)
        (((forEach (allFin 48) (fun g s => s.commitChannel old g) s).commitStations old).station (upperOf k)).qOut := by
  set u := (forEach (allFin 48) (fun g s => s.commitChannel old g) s).commitStations old with hu
  have hr : u.reaches = s.reaches := forEach_keeps (π := State.reaches) (fun g t => quiet_reaches.commitChannel t old g) _ _
  have ha : u.active = s.active := forEach_keeps (π := State.active) (fun g t => quiet_active.commitChannel t old g) _ _
  have := (forEach_at (fun t k => t.reach k) (fun k s => s.commitReach old k)
    (fun t => t.active = s.active ∧ t.stations = u.stations)
    (fun k r => r.atCommit (old.reaches.get k) (s.reachEntry k) (u.station (upperOf k)).qOut)
    (fun k t ht => ⟨(calm_active.commitReach t old k).trans ht.1, ?_⟩) (fun k t ht => ?_) (fun k j t _ hne => ?_)
    (allFin_nodup 5) (s := u) ⟨ha, rfl⟩).1 k (mem_allFin k)
  · rw [this]
    unfold State.reach
    rw [hr]
  · exact (commitReach_stations t old k).trans ht.2
  · rw [commitReach_reach, if_pos rfl]
    unfold State.reachEntry State.station
    rw [ht.1, ht.2]
  · rw [commitReach_reach, if_neg hne]

theorem steady_linesHeld : Steady (fun _ => True) LinesHeld where
  toWrites := writes_linesHeld
  commit s _ hf h := by
    have hv : s.store.planPending.valid = true := by simpa [Plan.valid] using hf
    have hhead : LinesHeld (forEach (allFin 5) (fun k t => t.commitReach s.active k)
        ((forEach (allFin 48) (fun g t => t.commitChannel s.active g)
          (s.setStore { s.store with active := s.store.planPending })).commitStations s.active)) := by
      refine ⟨by rw [commitHead_store]; exact ⟨hv, h.1.2⟩, fun k => (lineSound_iff _ k).mpr ?_⟩
      rw [commitHead_reach]
      unfold State.reachEntry State.active
      rw [commitHead_store]
      intro hp
      exact LineAt.atCommit _ ((lineSound_iff s k).mp (h.2 k)) hp (tau_pos (Plan.passes_of_valid hv) hp)
    unfold State.commitPlan
    refine writes_linesHeld.notify _ _ _ _ ?_
    have htail := writes_linesHeld.planTail s.active hhead
    rw [← takePlan_eq] at htail
    have hstore : ((s.setStore { s.store with active := s.store.planPending }).takePlan s.active).store
      = { s.store with active := s.store.planPending } := calm_store.takePlan ..
    refine ⟨⟨htail.1.1, hv⟩, htail.2⟩

/-- Settles O57: a minute drops one minute of a line and appends one, and a line that is replaced is replaced by its whole travel
time. -/
theorem stepsKeepTheReachLines : Obligations.StepsKeepTheReachLines := fun s t h hs => by
  rw [linesSound_iff] at h ⊢
  exact ⟨steady_storeSound.step h.1 hs, steady_linesHeld.step h.2 hs⟩

end Sys2Proof.Machine
end

section
/-! The state after a reset, and a state whose silence records fit an ACTIVE plan that no walk of R160 let through. -/

namespace Sys2Proof.Machine

theorem reset_settled : State.reset.settled := (settled_iff _).mpr ⟨by decide, by decide⟩

theorem reset_storeSound : StoreSound State.reset := ⟨empty_valid, empty_valid, nofun, nofun⟩

/-- Settles O3: nothing waits, runs or is held after a reset, and the empty plan names nothing. -/
theorem invariantsHoldAtReset : Obligations.InvariantsHoldAtReset := by
  refine ⟨reset_settled, reset_storeSound, ?queues, ?clock, ?lines, ?silence, ?bindings, ?openings⟩
  case queues => exact ⟨by decide, by decide, by decide, by decide, by decide, rfl, by decide, .inl rfl⟩
  case clock => show Clock.powerOn.valid = true; decide
  case lines =>
    refine ⟨reset_storeSound, fun k hp => ?_⟩
    revert k
    decide
  case silence =>
    intro k
    have : ¬ ((State.reset.stationEntry k).isPresent ∧ 0 < (State.reset.stationEntry k).silenceCount) := by
      revert k
      decide
    rw [SilenceFits, if_neg this]
    exact Tab.get_gen ..
  case bindings => unfold BindingSound; decide
  case openings => exact ⟨reset_storeSound, fun g => by
    rw [show State.reset.chan g = Channel.resetAs .unbound from Tab.get_gen ..]
    exact Channel.OpeningsIn.resetAs rfl⟩

/-- Gate 0 bound to station 0, whose entry is absent but names a silence period, and an issuer with the right of command. -/
def absentStationPlan : Plan :=
  { Plan.empty with
    stations := Plan.empty.stations.set 0 { StationEntry.absent with silenceCount := 1, silenceBase := 1 }
    gates := Plan.empty.gates.set 0 { GateEntry.absent with present := 1 }
    auth := Plan.empty.auth.set 0 { AuthEntry.absent with present := 1, rights := 1#8 } }

/-- That plan ACTIVE, its gate in IDLE, and a SETPOINT of the issuer at the front of the queue. -/
def absentStationState : State :=
  { State.reset with
    pending := [.setpoint 0#8 (List.replicate 7 0#8)]
    chans := State.reset.chans.set 0 (Channel.resetAs .idle)
    store := { State.reset.store with active := absentStationPlan } }

theorem absentStationState_silenceSound : SilenceSound absentStationState := by
  intro k
  have hp : (absentStationState.stationEntry k).isPresent = false := by
    revert k
    decide
  rw [SilenceFits, if_neg (by rw [hp]; nofun)]
  exact Tab.get_gen ..

/-- The silence record of station 0 that a step leaves, and whether the station is present in its ACTIVE plan. -/
def silenceAfter (r : Host.Outcome State Fault Refusal) : Option (SilenceRec × Bool) :=
  match r with
  | .next t => some (t.silenceOf 0, (t.stationEntry 0).isPresent)
  | _ => none

theorem absentStationState_step :
    silenceAfter (step absentStationState) = some ({ level := .l0, timer := some 1 }, false) := by
  decide +kernel

/-- Refutes O58: `SilenceSound` does not say that ACTIVE is valid. With a gate bound to a station whose entry is absent, an admitted
SETPOINT counts as activity of that station and starts its timer (R119). -/
theorem not_stepsKeepTheSilenceRecords : ¬ Obligations.StepsKeepTheSilenceRecords := by
  intro h
  have hstep := absentStationState_step
  unfold silenceAfter at hstep
  split at hstep
  · next t ht =>
    have hfits := h _ t absentStationState_silenceSound ht 0
    obtain ⟨hsil, habs⟩ := Prod.mk.inj (Option.some.inj hstep)
    rw [SilenceFits, if_neg (by rw [habs]; nofun), hsil] at hfits
    cases hfits
  · cases hstep

end Sys2Proof.Machine
end

section
/-! The queues stay within their places and the clock at a valid time: a property that the events keep and that sees the ports, the
inbox and the clock beside what `Keeps` covers is `Durable`; the Responder told of room, and the end of its taking, go beside it. -/

namespace Sys2Proof.Machine

/-- A `Keeps` property that the writes of the Plan Store, the clock, the counts and the forwarding queues keep too. -/
structure Durable (P : State → Prop) : Prop extends Keeps P where
  store : ∀ s r, P s → P (s.setStore r)
  clock : ∀ (s : State) c, c.valid = true → P s → P { s with clock := c, prescaler := 0 }
  free : ∀ s : State, P s → P s.useFree
  rejects : ∀ (s : State) r, P s → P { s with rejects := r }
  countD : ∀ (s : State) f, P s → P (s.countD f)
  countF : ∀ (s : State) f, P s → P (s.countF f)
  pass : ∀ (s : State) f, P s → P (s.passToField f)
  forward : ∀ (s : State) f, P s → P (s.forwardUp f)
  tick : ∀ s : State, P s → P s.tick
  freeF : ∀ s : State, P s → P (s.setPortF { s.portF with sending := none })
  freeD : ∀ s : State, P s → P (s.setPortD { s.portD with sending := none })

section durable

variable {P : State → Prop} (q : Durable P) {s : State}

include q

theorem Durable.reject (f : AdmissionFrame) (i t : Nat) (c : RejectCause) (v : Nat) (h : P s) : P (s.reject f i t c v) :=
  q.notice _ _ _ _ _ (q.rejects _ _ h)

/-- What the events do to the blocks keeps the property. -/
theorem Durable.events : Events P where
  finish _ h := q.finish h
  due _ e h := q.takeDue e h
  tick := q.tick
  first _ k h := q.firstSilence k h
  second _ k h := q.secondSilence k h
  written s h := by
    unfold State.retainedWritten
    split
    · exact q.store _ _ h
    · exact h
  judge _ g h := q.judge g h
  countD := q.countD
  countF := q.countF
  pass := q.pass
  forward := q.forward
  setpoint s g f h := by
    unfold State.judgeSetpoint
    split
    · exact q.reject _ _ _ _ _ h
    · exact q.admitSetpoint _ _ _ h
    · exact h
  keepalive s i k h := by
    unfold State.takeKeepalive
    split
    · exact q.reject _ _ _ _ _ h
    · exact q.activity _ h
  inflow s i k f h := by
    unfold State.takeInflow
    split
    · exact q.reject _ _ _ _ _ h
    · exact q.station _ _ _ h
  position _ g o f h := q.takePosition g o f h
  gauge _ g l y h := q.takeGauge g l y h
  freeF := q.freeF
  freeD := q.freeD

theorem Durable.commitPlan (h : P s) : P s.commitPlan := by
  unfold State.commitPlan
  exact q.notice _ _ _ _ _ (q.store _ _ (q.takePlan _ (q.store _ _ h)))

/-- A request, carried out or refused by its own rule. -/
theorem Durable.handle (r : Request) (args : List Byte) (h : P s) : P (s.handle r args).state := by
  cases r with
  | badKind => exact h
  | readEntry => exact (handleReadEntry_state s args).symm ▸ h
  | check => exact (handleCheck_state s).symm ▸ h
  | readCounts => exact (handleReadCounts_state s args).symm ▸ h
  | restart => exact (handleRestart_state s args).symm ▸ h
  | abandon => exact q.store _ _ h
  | abandonCopy => exact q.store _ _ h
  | copy =>
    show P (s.handleCopy).state
    unfold State.handleCopy
    split
    · exact h
    · exact q.store _ _ h
  | openLoad =>
    show P (s.handleOpenLoad args).state
    unfold State.handleOpenLoad
    split
    · split
      · exact h
      · exact q.store _ _ h
    · exact h
  | writeEntry =>
    show P (s.handleWriteEntry args).state
    unfold State.handleWriteEntry
    split
    · exact h
    · split
      · split
        · exact h
        · exact q.store _ _ h
      · exact h
  | commit =>
    show P (s.handleCommit).state
    unfold State.handleCommit
    split
    · exact h
    · split
      · exact h
      · split
        · exact h
        · split
          · exact h
          · exact q.commitPlan h
  | setClock =>
    show P (s.handleSetClock args).state
    unfold State.handleSetClock
    split
    · next ha =>
      have hv : (readClock args).valid = true := by
        rw [clockArgs, Bool.and_eq_true] at ha
        exact ha.2
      exact q.notice _ _ _ _ _ (q.clock _ _ hv h)
    · exact h
  | resumeStation =>
    show P (s.handleResumeStation args).state
    unfold State.handleResumeStation
    split
    · exact h
    · split
      · split
        · exact q.restartSilence _ h
        · exact q.resumeStation _ _ _ h
        · exact q.resumeStation _ _ _ h
      · exact h
  | resumeGate =>
    show P (s.handleResumeGate args).state
    unfold State.handleResumeGate
    split
    · exact h
    · split
      · exact q.chanEvent _ _ (q.enter _ _ h)
      · exact h
  | forceGate =>
    show P (s.handleForceGate args).state
    unfold State.handleForceGate
    split
    · split
      · exact h
      · split
        · exact q.force _ _ h
        · exact h
    · exact h
  | setMemberOut =>
    show P (s.handleSetMemberOut args).state
    unfold State.handleSetMemberOut
    split
    · exact h
    · split
      · exact h
      · split
        · exact h
        · split
          · exact h
          · exact q.changeOut _ _ _ h
  | reseedReach =>
    show P (s.handleReseedReach args).state
    unfold State.handleReseedReach
    split
    · exact h
    · split
      · exact q.reseed _ _ _ h
      · exact h
  | readMarks =>
    show P (s.handleReadMarks args).state
    unfold State.handleReadMarks
    split
    · exact h
    · simp only
      split
      · exact q.free _ (q.station _ _ _ h)
      · exact h
  | snapshot =>
    show P (s.handleSnapshot args).state
    unfold State.handleSnapshot
    split
    · exact q.report _ _ h
    · exact h
  | readSnapshot =>
    show P (s.handleReadSnapshot args).state
    unfold State.handleReadSnapshot
    simp only
    with_reducible repeat' split
    case h_2 => exact q.free _ h
    all_goals exact h
  | setSampler =>
    show P (s.handleSetSampler args).state
    unfold State.handleSetSampler
    split
    · exact q.setSampler _ h
    · exact h
  | readTrace =>
    show P (s.handleReadTrace args).state
    unfold State.handleReadTrace
    split
    · split
      · exact h
      · exact q.setSampler _ h
    · exact h

theorem Durable.judgeRequest (p : List Byte) (h : P s) : P (s.judgeRequest p).state := by
  unfold State.judgeRequest
  split
  · exact q.handle _ _ h
  · exact h

end durable

/-- The queues within their places (R144, R146, R147, R149), `r` places of UP_OWN reserved, and the clock at a valid time. -/
structure Fits (r : Nat) (s : State) : Prop where
  urgent : s.portF.urgent.length ≤ 16
  routine : s.portF.routine.length ≤ 64
  streak : s.portF.streak ≤ 8
  fwd : s.portD.fwd.length ≤ 64
  own : s.portD.own.length + r ≤ 32
  reserved : s.portD.reserved = r
  inbox : s.inbox.length ≤ 4
  clock : s.clock.valid = true

/-- What `Fits` looks at. -/
theorem Fits.of_same {r : Nat} {s t : State} (h : Fits r s) (hF : t.portF = s.portF) (hD : t.portD = s.portD)
    (hi : t.inbox = s.inbox) (hc : t.clock = s.clock) : Fits r t := by
  obtain ⟨h1, h2, h3, h4, h5, h6, h7, h8⟩ := h
  exact ⟨hF ▸ h1, hF ▸ h2, hF ▸ h3, hD ▸ h4, hD ▸ h5, hD ▸ h6, hi ▸ h7, hc ▸ h8⟩

theorem ownRoom_iff (s : State) : s.ownRoom = true ↔ s.portD.own.length + s.portD.reserved < 32 := decide_eq_true_iff

theorem clock_tick_valid {c : Clock} (h : c.valid = true) : c.tick.valid = true := by
  have hday : 1 ≤ lastDay 0 := by decide
  have hdays : ∀ y, 1 ≤ lastDay y := fun y => by unfold lastDay; split <;> decide
  simp only [Clock.valid, Bool.and_eq_true, decide_eq_true_eq] at h ⊢
  obtain ⟨⟨⟨⟨⟨hy, hd⟩, hl⟩, hh⟩, hm⟩, hs⟩ := h
  unfold Clock.tick
  split
  · exact ⟨⟨⟨⟨⟨hy, hd⟩, hl⟩, hh⟩, hm⟩, by simp only; omega⟩
  · split
    · exact ⟨⟨⟨⟨⟨hy, hd⟩, hl⟩, hh⟩, by simp only; omega⟩, Nat.zero_le _⟩
    · split
      · exact ⟨⟨⟨⟨⟨hy, hd⟩, hl⟩, by simp only; omega⟩, Nat.zero_le _⟩, Nat.zero_le _⟩
      · split
        · exact ⟨⟨⟨⟨⟨hy, Nat.le_succ_of_le hd⟩, by simp only; omega⟩, Nat.zero_le _⟩, Nat.zero_le _⟩, Nat.zero_le _⟩
        · refine ⟨⟨⟨⟨⟨?_, le_refl _⟩, hdays _⟩, Nat.zero_le _⟩, Nat.zero_le _⟩, Nat.zero_le _⟩
          simp only
          split <;> omega

theorem length_concat_le {α : Type} {l : List α} {x : α} {n : Nat} (h : l.length < n) : (l ++ [x]).length ≤ n := by
  rw [List.length_append, List.length_singleton]
  exact h

theorem durable_fits (r : Nat) : Durable (Fits r) where
  chan _ _ _ h := h.of_same rfl rfl rfl rfl
  gang _ _ _ h := h.of_same rfl rfl rfl rfl
  station _ _ _ h := h.of_same rfl rfl rfl rfl
  silence _ _ _ h := h.of_same rfl rfl rfl rfl
  reach _ _ _ h := h.of_same rfl rfl rfl rfl
  armed _ _ h := h.of_same rfl rfl rfl rfl
  due _ _ h := h.of_same rfl rfl rfl rfl
  tables _ _ h := h.of_same rfl rfl rfl rfl
  waits _ _ _ h := { h with }
  push s w f hr h := by
    cases w with
    | urgent => exact { h with urgent := length_concat_le (of_decide_eq_true hr) }
    | routine => exact { h with routine := length_concat_le (of_decide_eq_true hr) }
  report _ _ h := h.of_same rfl rfl rfl rfl
  notice s kind subject d v h := by
    unfold State.notify
    split
    · next hr =>
      have hown : (s.portD.own ++ [OwnFrame.notice ⟨kind, subject, s.now, d, v, s.report.gapMark⟩]).length + r ≤ 32 := by
        rw [List.length_append, List.length_singleton]
        have := (ownRoom_iff s).mp hr
        have := h.reserved
        omega
      exact { h with own := hown }
    · exact h.of_same rfl rfl rfl rfl
  store _ _ h := h.of_same rfl rfl rfl rfl
  clock _ _ hv h := { h with clock := hv }
  free _ h := h.of_same rfl rfl rfl rfl
  rejects _ _ h := h.of_same rfl rfl rfl rfl
  countD _ _ h := { h with }
  countF _ _ h := { h with }
  pass s f h := by
    unfold State.passToField
    split
    · next hr => exact { h with routine := length_concat_le hr }
    · exact { h with }
  forward s f h := by
    unfold State.forwardUp
    split
    · next hr => exact { h with fwd := length_concat_le hr }
    · exact { h with }
  tick _ h := { h with clock := clock_tick_valid h.clock }
  freeF _ h := { h with }
  freeD _ h := { h with }

/-- The streak after a choice is at most 8 (R146). -/
theorem choice_streak {p : PortF} {w : FieldQueue} {n : Nat} (hc : p.choice = some (w, n)) : n ≤ 8 := by
  unfold PortF.choice at hc
  split at hc
  · cases hc
  · cases hc
    exact min_le_right _ _
  · split at hc
    · next hlt =>
      cases hc
      exact hlt
    · cases hc
      exact Nat.zero_le _
  · cases hc
    exact Nat.zero_le _

theorem Fits.resetAll {r : Nat} {s : State} (h : s.clock.valid = true) (kind : ResetKind) (hr : r = 0) :
    Fits r (s.resetAll kind) := by
  subst hr
  have hb : Fits 0 s.blocksReset :=
    ⟨Nat.zero_le _, Nat.zero_le _, Nat.zero_le _, Nat.zero_le _, Nat.zero_le _, rfl, Nat.zero_le _, h⟩
  unfold State.resetAll
  simp only
  split
  · exact (durable_fits 0).notice _ _ _ _ _ hb
  · exact (durable_fits 0).notice _ _ _ _ _ ((durable_fits 0).notice _ _ _ _ _ hb)

theorem length_drop_one_le {α : Type} {l : List α} {n : Nat} (h : l.length ≤ n) : (l.drop 1).length ≤ n := by
  rw [List.length_drop]
  omega

/-- A request is answered into the place reserved for it (R149). -/
theorem Fits.respond {s : State} (h : Fits 0 s) (hr : s.ownRoom = true) (p : List Byte) : Fits 0 (s.respond p) := by
  have hown := (ownRoom_iff s).mp hr
  have h1 : Fits 1 s.reserve :=
    { h with own := Nat.lt_of_le_of_lt (Nat.le_add_right _ _) hown
             reserved := congrArg (· + 1) h.reserved
             inbox := length_drop_one_le h.inbox }
  have h2 := (durable_fits 1).judgeRequest p h1
  have h3 : ∀ status results, Fits 0 ((s.reserve.judgeRequest p).state.placeReply p status results) := fun status results =>
    { h2 with own := by
                have := h2.own
                show (_ ++ [_]).length + 0 ≤ 32
                rw [List.length_append, List.length_singleton]
                exact this
              reserved := by
                show (s.reserve.judgeRequest p).state.portD.reserved - 1 = 0
                rw [h2.reserved] }
  unfold State.respond State.afterReply
  refine (durable_fits 0).finish ?_
  split
  · exact Fits.resetAll (h3 _ _).clock _ rfl
  · exact h3 _ _

/-- Every operation of a command keeps the queues within their places. -/
theorem sturdy_fits : Sturdy (Fits 0) where
  toEvents := (durable_fits 0).events
  told _ _ h := h.of_same rfl rfl rfl rfl
  beginD s h := by
    unfold State.beginD
    split
    · split
      · next hf =>
        have := h.fwd
        rw [hf] at this
        exact { h with fwd := Nat.le_of_succ_le this }
      · next hf =>
        have := h.own
        rw [hf] at this
        exact { h with own := Nat.le_of_succ_le this }
      · exact h
    · exact h
  beginF s claim h := by
    unfold State.beginF
    split
    · next w n hc =>
      split
      · simp only
        refine forEach_preserves (fun g _ ht => (durable_fits 0).judge g ht) _ _ ?_
        have h1 : Fits 0 (s.setPortF { s.portF.pop w with streak := n, sending := (s.portF.frames w).head? }) := by
          cases w with
          | urgent => exact { h with urgent := length_drop_one_le h.urgent, streak := choice_streak hc }
          | routine => exact { h with routine := length_drop_one_le h.routine, streak := choice_streak hc }
        unfold State.claimRoom
        split
        · split
          · exact (durable_fits 0).pass _ _ ((durable_fits 0).countD _ _ h1)
          · exact h1
        · exact h1
      · exact h
    · exact h
  respond _ p _ _ hr h := h.respond hr p
  inbox _ _ hl h := { h with inbox := length_concat_le hl }

/-- A request waits only while UP_OWN is full or the Responder is told of room (R149, log 6). -/
def WaitsInTurn (s : State) : Prop := s.inbox = [] ∨ s.told = true ∨ s.ownRoom = false

/-- Where the inbox and what the Responder was told stay, the wait goes on while UP_OWN stays full. -/
theorem WaitsInTurn.of_full {s t : State} (h : WaitsInTurn s) (hi : t.inbox = s.inbox) (ht : t.told = s.told)
    (hf : s.ownRoom = false → t.ownRoom = false) : WaitsInTurn t :=
  h.imp hi.trans (Or.imp ht.trans hf)

theorem WaitsInTurn.of_same {s t : State} (h : WaitsInTurn s) (hi : t.inbox = s.inbox) (ht : t.told = s.told)
    (ho : t.portD.own = s.portD.own) (hr : t.portD.reserved = s.portD.reserved) : WaitsInTurn t :=
  h.of_full hi ht fun hf => by
    unfold State.ownRoom at *
    rw [ho, hr]
    exact hf

theorem WaitsInTurn.notify {s : State} (h : WaitsInTurn s) (kind : NoticeKind) (subject : Subject) (d v : Nat) :
    WaitsInTurn (s.notify kind subject d v) :=
  h.of_full (quiet_inbox.notify ..) (calm_told.notify ..) (keeps_full.notice _ _ _ _ _)

theorem durable_waitsInTurn : Durable WaitsInTurn where
  chan _ _ _ h := h.of_same rfl rfl rfl rfl
  gang _ _ _ h := h.of_same rfl rfl rfl rfl
  station _ _ _ h := h.of_same rfl rfl rfl rfl
  silence _ _ _ h := h.of_same rfl rfl rfl rfl
  reach _ _ _ h := h.of_same rfl rfl rfl rfl
  armed _ _ h := h.of_same rfl rfl rfl rfl
  due _ _ h := h.of_same rfl rfl rfl rfl
  tables _ _ h := h.of_same rfl rfl rfl rfl
  waits _ _ _ h := h.of_same rfl rfl rfl rfl
  push _ _ _ _ h := h.of_same rfl rfl rfl rfl
  report _ _ h := h.of_same rfl rfl rfl rfl
  notice _ kind subject d v h := h.notify kind subject d v
  store _ _ h := h.of_same rfl rfl rfl rfl
  clock _ _ _ h := h.of_same rfl rfl rfl rfl
  free _ h := h.of_same rfl rfl rfl rfl
  rejects _ _ h := h.of_same rfl rfl rfl rfl
  countD _ _ h := h.of_same rfl rfl rfl rfl
  countF _ _ h := h.of_same rfl rfl rfl rfl
  pass s f h := by
    unfold State.passToField
    split <;> exact h.of_same rfl rfl rfl rfl
  forward s f h := by
    unfold State.forwardUp
    split <;> exact h.of_same rfl rfl rfl rfl
  tick _ h := h.of_same rfl rfl rfl rfl
  freeF _ h := h.of_same rfl rfl rfl rfl
  freeD _ h := h.of_same rfl rfl rfl rfl

/-- A request taken leaves the inbox, all of it at a RESTART. -/
theorem respond_inbox_length (s : State) (p : List Byte) : (s.respond p).inbox.length ≤ s.inbox.length - 1 := by
  have hj : (s.reserve.judgeRequest p).state.inbox = s.inbox.drop 1 := by
    have hh := fun r args => congrArg (fun o => o.2.2.2.2.2.1) (still_outside.handle s.reserve r args)
    unfold State.judgeRequest
    split
    · exact hh _ _
    · rfl
  unfold State.respond State.afterReply
  rw [calm_inbox.finish]
  split
  · have hr : ∀ (t : State) kind, (t.resetAll kind).inbox = [] := fun t kind => by
      unfold State.resetAll
      simp only
      split <;> simp only [quiet_inbox.notify] <;> rfl
    rw [hr]
    exact Nat.zero_le _
  · show (s.reserve.judgeRequest p).state.inbox.length ≤ _
    rw [hj, List.length_drop]

/-- The Responder goes on until the inbox is empty or UP_OWN is full (R149). -/
theorem waitsInTurn_serve (n : Nat) (s : State) (h : s.inbox.length ≤ n) : WaitsInTurn (State.serve n s) := by
  induction n generalizing s with
  | zero => exact .inl (List.length_eq_zero_iff.mp (Nat.le_zero.mp h))
  | succ n ih =>
    unfold State.serve
    split
    · next he => exact .inl he
    · next p ps hp =>
      simp only
      split
      · refine ih _ ?_
        have hi : ((s.beforeTaking p).respond p).betweenRequests.inbox = ((s.beforeTaking p).respond p).inbox := by
          unfold State.betweenRequests
          split
          · rfl
          · exact lined_inbox.onLines _
        have := respond_inbox_length (s.beforeTaking p) p
        rw [beforeTaking_inbox] at this
        rw [hi]
        omega
      · next hr => exact .inr (.inr (Bool.eq_false_iff.mpr hr))

section waits

variable {s : State}

theorem WaitsInTurn.finish (h : WaitsInTurn s) : WaitsInTurn s.finish := durable_waitsInTurn.finish h

theorem WaitsInTurn.hear (h : WaitsInTurn s) : WaitsInTurn s.hear := by
  unfold State.hear
  split
  · exact waitsInTurn_serve _ _ (le_refl _)
  · exact h

/-- A beginning on port D that frees a place of UP_OWN goes to the Responder, or the Responder is told of it (log 6). -/
theorem WaitsInTurn.beginAndTell (first : FirstTaker) (h : WaitsInTurn s) : WaitsInTurn (s.beginAndTell first) := by
  have hinbox : s.beginD.inbox = s.inbox := lined_inbox.beginD s
  have htold : s.beginD.told = s.told := lined_told.beginD s
  have hres : s.beginD.portD.reserved = s.portD.reserved := by
    unfold State.beginD
    split
    · split <;> rfl
    · rfl
  unfold State.beginAndTell
  simp only
  split
  · cases first with
    | responder => exact waitsInTurn_serve _ _ (le_refl _)
    | nextEvent =>
      by_cases he : s.beginD.inbox = []
      · exact .inl he
      · exact .inr (.inl (by simpa [List.isEmpty_iff] using he))
  · next hlen =>
    refine h.of_full hinbox htold fun hf => Bool.eq_false_iff.mpr fun hr => ?_
    rw [ownRoom_iff, hres] at hr
    have := (ownRoom_iff s).mpr (by omega)
    rw [hf] at this
    cases this

theorem WaitsInTurn.beginsD (h : WaitsInTurn s) : WaitsInTurn s.beginsD := by
  unfold State.beginsD
  split
  · exact (h.beginAndTell _).finish
  · exact h

theorem WaitsInTurn.beginF (claim : Claim) (h : WaitsInTurn s) : WaitsInTurn (s.beginF claim) := by
  unfold State.beginF
  split
  · next w n _ =>
    split
    · simp only
      refine forEach_preserves (fun g _ ht => durable_waitsInTurn.judge g ht) _ _ ?_
      have h1 : WaitsInTurn (s.setPortF { s.portF.pop w with streak := n, sending := (s.portF.frames w).head? }) :=
        h.of_same rfl rfl rfl rfl
      unfold State.claimRoom
      split
      · split
        · exact durable_waitsInTurn.pass _ _ (durable_waitsInTurn.countD _ _ h1)
        · exact h1
      · exact h1
    · exact h
  · exact h

theorem WaitsInTurn.beginsF (h : WaitsInTurn s) : WaitsInTurn s.beginsF := by
  unfold State.beginsF
  split
  · exact (h.beginF _).finish
  · exact h

theorem WaitsInTurn.begun (h : WaitsInTurn s) : WaitsInTurn s.begun := h.beginsD.beginsD.beginsF

/-- An event, with the Responder's taking before or behind it. -/
theorem WaitsInTurn.takeEvent {f : State → State} (hf : ∀ t, WaitsInTurn t → WaitsInTurn (f t)) (h : WaitsInTurn s) :
    WaitsInTurn (s.takeEvent f) := by
  unfold State.takeEvent
  split
  · simp only
    split
    · exact waitsInTurn_serve _ _ (le_refl _)
    · exact (hf _ h.hear.begun).finish
  · exact (hf _ h).finish

theorem WaitsInTurn.runWaiting {f : State → State} (hf : ∀ t, WaitsInTurn t → WaitsInTurn (f t)) (h : WaitsInTurn s) :
    WaitsInTurn (s.runWaiting f) := by
  unfold State.runWaiting
  simp only
  split
  · exact waitsInTurn_serve _ _ (le_refl _)
  · exact (hf _ h.begun).finish

theorem WaitsInTurn.takeAll (es : List DueEvent) (h : WaitsInTurn s) : WaitsInTurn (s.takeAll es) := by
  have hw : ∀ t, WaitsInTurn t → WaitsInTurn (t.takeEach State.runWaiting es) := fun t ht =>
    takeEach_preserves (fun e t ht _ => ht.runWaiting fun u hu => durable_waitsInTurn.takeDue e hu) _ ht
  unfold State.takeAll
  simp only
  split
  · exact hw _ h.hear.begun
  · exact hw _ h

theorem WaitsInTurn.serveRow (row : Request → Bool) (h : WaitsInTurn s) : WaitsInTurn (s.serveRow row) := by
  unfold State.serveRow
  split
  · exact h
  · next p ps hp =>
    split
    · exact waitsInTurn_serve _ _ (by rw [hp]; exact le_refl _)
    · exact h

theorem WaitsInTurn.receiveRequest (dest : Byte) (p : List Byte) (h : WaitsInTurn s) : WaitsInTurn (s.receiveRequest dest p) := by
  unfold State.receiveRequest State.takeRequestFrame
  simp only
  split
  · exact durable_waitsInTurn.countD _ _ h
  · split
    · split
      · exact durable_waitsInTurn.countD _ _ (durable_waitsInTurn.countD _ _ h)
      · exact waitsInTurn_serve _ _ (length_concat_le (Nat.lt_succ_self _))
    · exact durable_waitsInTurn.pass _ _ (durable_waitsInTurn.countD _ _ h)

theorem waitsInTurn_resetAll (s : State) (kind : ResetKind) : WaitsInTurn (s.resetAll kind) := by
  have hb : WaitsInTurn s.blocksReset := .inl rfl
  unfold State.resetAll
  simp only
  split
  · exact hb.notify _ _ _ _
  · exact (hb.notify _ _ _ _).notify _ _ _ _

/-- A command leaves requests waiting only in their turn. -/
theorem WaitsInTurn.exec (c : Instr) (h : WaitsInTurn s) : ∃ t, exec c s = .next t ∧ WaitsInTurn t := by
  have hpin : ∀ (t : State) b, WaitsInTurn t → WaitsInTurn { t with fieldReady := b } := fun t b ht => ht.of_same rfl rfl rfl rfl
  cases kind_of c with
  | powerOn x => exact ⟨_, rfl, (waitsInTurn_resetAll _ _).finish⟩
  | external x => exact ⟨_, rfl, (waitsInTurn_resetAll _ _).finish⟩
  | asserted => exact ⟨_, rfl, h.begun.takeEvent fun t ht => hpin t _ ht⟩
  | deasserted => exact ⟨_, rfl, h.begun.takeEvent fun t ht => hpin t _ ht⟩
  | second => exact ⟨_, rfl, (h.begun.takeAll _).begun.takeEvent durable_waitsInTurn.tick⟩
  | minute part => exact ⟨_, rfl, (h.begun.takeAll _).finish⟩
  | event he =>
    obtain ⟨f, he, hf⟩ := he
    exact he s ▸ ⟨_, rfl, h.begun.takeEvent (hf WaitsInTurn durable_waitsInTurn.events)⟩
  | request d p => exact ⟨_, rfl, (h.begun.hear.begun.receiveRequest _ _).finish⟩
  | beginF claim => exact ⟨_, rfl, (h.beginF _).finish.hear⟩
  | beginD first => exact ⟨_, rfl, (h.beginAndTell _).finish⟩
  | row row hrow => exact hrow s ▸ ⟨_, rfl, (h.begun.serveRow _).finish⟩

theorem WaitsInTurn.step {t : State} (h : WaitsInTurn s) (hs : step s = .next t) : WaitsInTurn t := by
  unfold Machine.step at hs
  split at hs
  · cases hs
    exact h
  · next c rest _ =>
    have hq : WaitsInTurn (s.withQueue rest) := h.of_same rfl rfl rfl rfl
    obtain ⟨u, hu, hw⟩ := hq.exec c
    rw [hu] at hs
    cases hs
    exact hw

end waits

/-- The queues in their places are `Fits` and `WaitsInTurn`. -/
theorem queuesFit_iff (s : State) : QueuesFit s ∧ ClockSound s ↔ Fits 0 s ∧ WaitsInTurn s := by
  constructor
  · rintro ⟨⟨h1, h2, h3, h4, h5, h6, h7, h8⟩, hc⟩
    refine ⟨⟨h1, h2, h3, h4, h5, h6, h7, hc⟩, h8.imp id (Or.imp id fun he => Bool.eq_false_iff.mpr fun hr => ?_)⟩
    have := (ownRoom_iff s).mp hr
    omega
  · rintro ⟨⟨h1, h2, h3, h4, h5, h6, h7, hc⟩, hw⟩
    refine ⟨⟨h1, h2, h3, h4, h5, h6, h7, hw.imp id (Or.imp id fun hf => ?_)⟩, hc⟩
    by_contra hne
    have := (ownRoom_iff s).mpr (by omega)
    rw [hf] at this
    cases this

theorem fits_step {s t : State} (h : Fits 0 s) (hs : step s = .next t) : Fits 0 t :=
  sturdy_fits.step (fun _ _ h => h.of_same rfl rfl rfl rfl) (fun _ _ _ => Fits.resetAll (show Clock.powerOn.valid = true by decide) _ rfl)
    (fun s x h => Fits.resetAll (s := { s with straps := x }) h.clock _ rfl) (fun _ _ h => h.of_same rfl rfl rfl rfl) h hs

/-- Settles O56: every operation keeps the places, and the Responder goes on until it has nothing left to take or no room. -/
theorem stepsKeepQueuesAndClock : Obligations.StepsKeepQueuesAndClock := fun s t h hs => by
  rw [queuesFit_iff] at h ⊢
  exact ⟨fits_step h.1 hs, h.2.step hs⟩

end Sys2Proof.Machine
end

section
/-! Every command completes: what no command changes, the settled end of each, and the beginnings before it. -/

namespace Sys2Proof.Machine

/-- A durable property that sees neither the ports nor the inbox nor what a reset brings is kept by every operation of a command. -/
theorem Durable.sturdy {P : State → Prop} (q : Durable P) (waiting : ∀ (s : State) l b, P s → P { s with inbox := l, told := b })
    (lineF : ∀ s p, P s → P (s.setPortF p))
    (lineD : ∀ s p, P s → P (s.setPortD p)) (reset : ∀ (s : State) kind, P s → P (s.resetAll kind)) : Sturdy P where
  toEvents := q.events
  told s b h := waiting s s.inbox b h
  beginD s h := by
    unfold State.beginD
    split
    · split
      · exact lineD _ _ h
      · exact q.free _ (lineD _ _ h)
      · exact h
    · exact h
  beginF s claim h := by
    unfold State.beginF
    split
    · next w n _ =>
      split
      · simp only
        refine forEach_preserves (fun g _ ht => q.judge g ht) _ _ ?_
        have h1 : P (s.setPortF { s.portF.pop w with streak := n, sending := (s.portF.frames w).head? }) := lineF _ _ h
        unfold State.claimRoom
        split
        · split
          · exact q.pass _ _ (q.countD _ _ h1)
          · exact h1
        · exact h1
      · exact h
    · exact h
  respond s p _ _ _ h := by
    have h1 : P s.reserve := lineD _ _ (waiting s (s.inbox.drop 1) false h)
    have h2 : ∀ status results, P ((s.reserve.judgeRequest p).state.placeReply p status results) := fun _ _ =>
      lineD _ _ (q.judgeRequest p h1)
    unfold State.respond State.afterReply
    refine q.finish ?_
    split
    · exact reset _ _ (h2 _ _)
    · exact h2 _ _
  inbox s _ _ h := waiting s _ s.told h

/-- The queue of commands, the strap levels and FIELD_READY. -/
def State.pins (s : State) : List Instr × Byte × Bool := (s.pending, s.straps, s.fieldReady)

theorem notify_pins (s : State) (kind : NoticeKind) (subject : Subject) (d v : Nat) : (s.notify kind subject d v).pins = s.pins := by
  unfold State.notify
  split <;> rfl

theorem resetAll_pins (s : State) (kind : ResetKind) : (s.resetAll kind).pins = s.pins := by
  unfold State.resetAll
  simp only
  split <;> simp only [notify_pins] <;> rfl

theorem durable_pins (Q : List Instr × Byte × Bool → Prop) : Durable fun s => Q s.pins where
  chan _ _ _ h := h
  gang _ _ _ h := h
  station _ _ _ h := h
  silence _ _ _ h := h
  reach _ _ _ h := h
  armed _ _ h := h
  due _ _ h := h
  tables _ _ h := h
  waits _ _ _ h := h
  push _ _ _ _ h := h
  report _ _ h := h
  notice _ _ _ _ _ h := (notify_pins ..).symm ▸ h
  store _ _ h := h
  clock _ _ _ h := h
  free _ h := h
  rejects _ _ h := h
  countD _ _ h := h
  countF _ _ h := h
  pass s f h := by
    unfold State.passToField
    split <;> exact h
  forward s f h := by
    unfold State.forwardUp
    split <;> exact h
  tick _ h := h
  freeF _ h := h
  freeD _ h := h

/-- What the queue, the straps and FIELD_READY say is kept by every operation of a command. -/
theorem sturdy_pins (Q : List Instr × Byte × Bool → Prop) : Sturdy fun s => Q s.pins :=
  (durable_pins Q).sturdy (fun _ _ _ h => h) (fun _ _ h => h) (fun _ _ h => h)
    fun s kind h => (resetAll_pins s kind).symm ▸ h

theorem finish_pins (s : State) : s.finish.pins = s.pins := (durable_pins (· = s.pins)).finish rfl

/-- The Responder told of room leaves a settled state settled. -/
theorem hear_settled {s : State} (h : s.settled) : s.hear.settled := by
  unfold State.hear
  split
  · exact serve_settled _ (h.of_same rfl rfl rfl rfl rfl)
  · exact h

/-- An event ends settled, with a taking of the Responder behind it too. -/
theorem takeEvent_settled (s : State) (f : State → State) : (s.takeEvent f).settled := by
  unfold State.takeEvent
  split
  · simp only
    split
    · exact serve_settled _ (settled_finish _)
    · exact settled_finish _
  · exact settled_finish _

theorem beginsD_settled {s : State} (h : s.settled) : s.beginsD.settled := by
  unfold State.beginsD
  split
  · exact settled_finish _
  · exact h

theorem begun_settled {s : State} (h : s.settled) : s.begun.settled := beginsF_settled (beginsD_settled (beginsD_settled h))

/-- Every command ends settled. -/
theorem exec_settled (c : Instr) (s : State) : ∃ t, exec c s = .next t ∧ t.settled := by
  cases kind_of c with
  | event he =>
    obtain ⟨f, he, _⟩ := he
    exact he s ▸ ⟨_, rfl, takeEvent_settled _ _⟩
  | asserted => exact ⟨_, rfl, takeEvent_settled _ _⟩
  | deasserted => exact ⟨_, rfl, takeEvent_settled _ _⟩
  | second => exact ⟨_, rfl, takeEvent_settled _ _⟩
  | beginF claim => exact ⟨_, rfl, hear_settled (settled_finish _)⟩
  | row row hrow => exact hrow s ▸ ⟨_, rfl, settled_finish _⟩
  | _ => exact ⟨_, rfl, settled_finish _⟩

/-- What a command with a known outcome leaves, by a property that its operations keep. -/
theorem exec_keeps {P : State → Prop} {c : Instr} {s t : State} (ht : exec c s = .next t) (h : ∃ u, exec c s = .next u ∧ P u) :
    P t := by
  obtain ⟨u, hu, hP⟩ := h
  rw [ht] at hu
  cases hu
  exact hP

/-- Every command keeps the queue of commands. -/
theorem exec_pending {c : Instr} {s t : State} (h : exec c s = .next t) : t.pending = s.pending :=
  exec_keeps h ((sturdy_pins (fun v => v.1 = s.pending)).exec (fun _ _ h => h)
    (fun _ _ h => (congrArg Prod.fst (resetAll_pins _ _)).trans h)
    (fun _ _ h => (congrArg Prod.fst (resetAll_pins _ _)).trans h) c rfl)

/-- Every command but the pin's own keeps FIELD_READY. -/
theorem exec_fieldReady {c : Instr} {s t : State} (h : exec c s = .next t) (ha : c ≠ .fieldReadyAsserted)
    (hd : c ≠ .fieldReadyDeasserted) : t.fieldReady = s.fieldReady := by
  have hreset : ∀ (u : State) kind, (u.resetAll kind).finish.fieldReady = u.fieldReady := fun u kind =>
    (congrArg (fun v => v.2.2) (finish_pins _)).trans (congrArg (fun v => v.2.2) (resetAll_pins u kind))
  by_cases hr : ∀ x, c ≠ .powerOnReset x ∧ c ≠ .externalReset x
  · exact exec_keeps h ((sturdy_pins (fun v => v.2.2 = s.fieldReady)).exec_other c hr ha hd rfl)
  · simp only [not_forall, not_and_or, not_not] at hr
    obtain ⟨x, rfl | rfl⟩ := hr <;> cases h
    · exact hreset _ _
    · exact hreset _ _

/-- Every command but the resets by pin keeps the strap levels. -/
theorem exec_straps {c : Instr} {s t : State} (h : exec c s = .next t) (hr : ∀ x, c ≠ .powerOnReset x ∧ c ≠ .externalReset x) :
    t.straps = s.straps := by
  have q := sturdy_pins fun v => v.2.1 = s.straps
  by_cases ha : c = .fieldReadyAsserted
  · subst ha
    exact exec_keeps h (q.event (fun _ h => h) rfl)
  · by_cases hd : c = .fieldReadyDeasserted
    · subst hd
      exact exec_keeps h (q.event (fun _ h => h) rfl)
    · exact exec_keeps h (q.exec_other c hr ha hd rfl)

/-- Every command but the resets and the two beginnings finds the transmissions due already begun. -/
theorem exec_begun (c : Instr) (s : State) (hr : ∀ x, c ≠ .powerOnReset x ∧ c ≠ .externalReset x)
    (hF : ∀ x, c ≠ .portFTxBegin x) (hD : ∀ x, c ≠ .portDTxBegin x) : exec c s = exec c s.begun := by
  have hb := begun_begun s
  cases kind_of c with
  | powerOn x => exact absurd rfl (hr x).1
  | external x => exact absurd rfl (hr x).2
  | asserted => exact event_begun ..
  | deasserted => exact event_begun ..
  | second =>
    show (s.begun.takeAll _).event _ = (s.begun.begun.takeAll _).event _
    rw [hb]
  | minute part =>
    show done (s.begun.takeAll _) = done (s.begun.begun.takeAll _)
    rw [hb]
  | event he =>
    obtain ⟨f, he, _⟩ := he
    rw [he, he]
    exact event_begun ..
  | request d p => exact arrival_begun s fun s => s.receiveRequest d p
  | beginF claim => exact absurd rfl (hF claim)
  | beginD first => exact absurd rfl (hD first)
  | row row hrow =>
    rw [hrow, hrow]
    unfold State.row
    rw [hb]

/-- Settles O2: by the kind of the command. -/
theorem everyCommandCompletes : Obligations.EveryCommandCompletes := by
  refine ⟨fun c s => ?_, fun s => ⟨(begun_not_due s).1, (begun_not_due s).2, begun_settled⟩, exec_begun⟩
  obtain ⟨t, ht, hs⟩ := exec_settled c s
  exact ⟨t, ht, hs, exec_pending ht, exec_fieldReady ht, exec_straps ht⟩

/-- Settles O1: by the definition of a step. -/
theorem stepTakesTheFrontCommand : Obligations.StepTakesTheFrontCommand := by
  have hcons : ∀ (c : Instr) (rest : List Instr) (s : State), s.pending = c :: rest → step s = exec c (s.withQueue rest) := by
    intro c rest s h
    unfold step
    rw [h]
  refine ⟨fun c s => hcons c s.pending _ rfl, hcons, fun s h => ?_⟩
  unfold step
  rw [h]

/-- Settles O6: from a quiet state an event is its own effect. -/
theorem pinsTransmittersAndRetainedWrite : Obligations.PinsTransmittersAndRetainedWrite := by
  intro s h
  have hset := h.1.1
  have hev : ∀ (f : State → State), (f s).settled → s.event f = .next (f s) := fun f hf =>
    (event_of_quiet h f).trans (done_of_settled hf)
  refine ⟨hev _ (hset.of_same rfl rfl rfl rfl rfl), hev _ (hset.of_same rfl rfl rfl rfl rfl),
    hev _ (hset.of_same rfl rfl rfl rfl rfl), hev _ (hset.of_same rfl rfl rfl rfl rfl), fun hw => ?_, fun hw => ?_⟩
  · have hf : s.retainedWritten = s.setStore { s.store with
        writing := false, retained := { plan := s.store.retained.plan, agrees := true } } := by
      unfold State.retainedWritten
      rw [if_pos hw]
    rw [← hf]
    exact hev State.retainedWritten (hf ▸ hset.of_same rfl rfl rfl rfl rfl)
  · have hf : s.retainedWritten = s := by
      unfold State.retainedWritten
      rw [hw]
      rfl
    exact (hev State.retainedWritten (hf.symm ▸ hset)).trans (congrArg _ hf)

end Sys2Proof.Machine
end

section
/-! Frames of the line ports and the Admission Unit's checks, from a quiet state: counted, passed, forwarded or rejected. -/

namespace Sys2Proof.Machine

/-! ### An event of a quiet state, and what it leaves -/

/-- From a quiet state a command of one event leaves that event's effect, when it ends settled. -/
theorem event_eq {s t : State} {f : State → State} (h : s.quiet) (hf : f s = t) (ht : t.settled) : s.event f = .next t := by
  rw [event_of_quiet h, hf, done_of_settled ht]

/-- From a quiet state an arrival leaves its effect, when it ends settled. -/
theorem arrival_eq {s t : State} {f : State → State} (h : s.quiet) (hf : f s = t) (ht : t.settled) : s.arrival f = .next t := by
  rw [arrival_of_quiet h, hf, done_of_settled ht]

theorem countD_settled {s : State} (h : s.settled) (f : PortCounts → PortCounts) : (s.countD f).settled :=
  h.of_same rfl rfl rfl rfl rfl

theorem countF_settled {s : State} (h : s.settled) (f : PortCounts → PortCounts) : (s.countF f).settled :=
  h.of_same rfl rfl rfl rfl rfl

theorem notify_settled {s : State} (h : s.settled) (kind : NoticeKind) (subject : Subject) (d v : Nat) :
    (s.notify kind subject d v).settled := by
  unfold State.notify
  split <;> exact h.of_same rfl rfl rfl rfl rfl

theorem passToField_settled {s : State} (h : s.settled) (f : LineFrame) : (s.passToField f).settled := by
  unfold State.passToField
  split <;> exact h.of_same rfl rfl rfl rfl rfl

theorem forwardUp_settled {s : State} (h : s.settled) (f : LineFrame) : (s.forwardUp f).settled := by
  unfold State.forwardUp
  split <;> exact h.of_same rfl rfl rfl rfl rfl

theorem SameBut.mono {ps qs : List Part} {s t : State} (h : SameBut ps s t) (hsub : ∀ p ∈ ps, p ∈ qs) : SameBut qs s t :=
  fun p hp => h p fun hm => hp (hsub p hm)

theorem Part.same_trans {p : Part} {s t u : State} (h : p.same s t) (h' : p.same t u) : p.same s u := by
  cases p with
  | pins => exact ⟨h'.1.trans h.1, h'.2.trans h.2⟩
  | clock => exact ⟨h'.1.trans h.1, h'.2.trans h.2⟩
  | _ => exact Eq.trans h' h

theorem SameBut.trans {ps : List Part} {s t u : State} (h : SameBut ps s t) (h' : SameBut ps t u) : SameBut ps s u :=
  fun p hp => Part.same_trans (h p hp) (h' p hp)

/-- What no `Quiet` projection sees changed: channels, gangs, the ports and the report at most. -/
theorem sameBut_of_quiet {s t : State} (h : ∀ {β : Type} {π : State → β}, Quiet π → π t = π s) :
    SameBut [.chans, .gangs, .portF, .portD, .report] s t := by
  have htold : Quiet State.told := calm_told.toQuiet
  intro p hp
  cases p with
  | queue => exact h quiet_pending
  | pins => exact ⟨h quiet_straps, h quiet_fieldReady⟩
  | node => exact h quiet_node
  | inbox => exact h quiet_inbox
  | stations => exact h quiet_stations
  | silence => exact h quiet_silence
  | reaches => exact h quiet_reaches
  | rejects => exact h quiet_rejects
  | clock => exact ⟨h quiet_clock, h quiet_prescaler⟩
  | minuteDue => exact h quiet_minuteDue
  | armed => exact h quiet_armed
  | store => exact h quiet_store
  | freeCount => exact h quiet_freeCount
  | told => exact h htold
  | _ => simp at hp

/-- What no `Calm` projection sees changed: the blocks' records, the ports, the owed minute and the report at most. -/
theorem sameBut_of_calm {s t : State} (h : ∀ {β : Type} {π : State → β}, Calm π → π t = π s) :
    SameBut [.stations, .silence, .reaches, .armed, .minuteDue, .chans, .gangs, .portF, .portD, .report] s t := by
  intro p hp
  cases p with
  | queue => exact h calm_pending
  | pins => exact ⟨h calm_straps, h calm_fieldReady⟩
  | node => exact h calm_node
  | inbox => exact h calm_inbox
  | rejects => exact h calm_rejects
  | clock => exact ⟨h calm_clock, h calm_prescaler⟩
  | store => exact h calm_store
  | freeCount => exact h calm_freeCount
  | told => exact h calm_told
  | _ => simp at hp

/-- A notice writes UP_OWN and the gap mark alone. -/
theorem notify_sameBut (s : State) (kind : NoticeKind) (subject : Subject) (d v : Nat) :
    SameBut [.portD, .report] s (s.notify kind subject d v) := by
  intro p hp
  unfold State.notify
  split <;> cases p <;> first | exact ⟨rfl, rfl⟩ | rfl | simp at hp

/-! ### Frames that are counted, passed or forwarded -/

theorem passToField_room {s : State} (h : s.portF.routine.length < 64) (f : LineFrame) :
    s.passToField f = s.setPortF { s.portF with routine := s.portF.routine ++ [f] } := if_pos h

theorem passToField_full {s : State} (h : 64 ≤ s.portF.routine.length) (f : LineFrame) :
    s.passToField f = s.countF PortCounts.addDropped := if_neg (Nat.not_lt.mpr h)

theorem forwardUp_room {s : State} (h : s.portD.fwd.length < 64) (f : LineFrame) :
    s.forwardUp f = s.setPortD { s.portD with fwd := s.portD.fwd ++ [f] } := if_pos h

theorem forwardUp_full {s : State} (h : 64 ≤ s.portD.fwd.length) (f : LineFrame) :
    s.forwardUp f = s.countD PortCounts.addDropped := if_neg (Nat.not_lt.mpr h)

theorem payloadFits_eq (p : List Byte) : payloadFits p = decide (p.length ≤ 56) := rfl

/-- A frame from dispatch whose event counts it received and passes it to ROUTINE. -/
theorem passes_of_event {s : State} {c : Instr} (f : LineFrame)
    (hc : exec c s = .next ((s.countD PortCounts.addReceived).passToField f)) :
    (s.portF.routine.length < 64 →
        exec c s = .next ((s.countD PortCounts.addReceived).setPortF { s.portF with routine := s.portF.routine ++ [f] }))
      ∧ (64 ≤ s.portF.routine.length → exec c s = .next ((s.countD PortCounts.addReceived).countF PortCounts.addDropped)) :=
  ⟨fun hr => by rw [hc, passToField_room (s := s.countD _) hr]; rfl,
    fun hr => by rw [hc, passToField_full (s := s.countD _) hr]⟩

theorem receivePass_eq {s : State} {f : LineFrame} (hl : f.payload.length ≤ 56) (hs : f.typ ≠ typSetpoint)
    (hk : f.typ ≠ typKeepalive) (hi : f.typ ≠ typInflow) (hn : s.forNode f = false) :
    s.receivePass f = (s.countD PortCounts.addReceived).passToField f := by
  have ha : isAdmissionType f.typ = false := by
    simp only [isAdmissionType, Bool.or_eq_false_iff, beq_eq_false_iff_ne]
    exact ⟨⟨hs, hk⟩, hi⟩
  unfold State.receivePass
  rw [payloadFits_eq, decide_eq_true hl, ha, hn]
  rfl

theorem forNode_eq_false {s : State} {f : LineFrame} (h : f.typ = typMgmtReq → s.node ≠ some f.dest) : s.forNode f = false := by
  unfold State.forNode
  rw [Bool.and_eq_false_iff, beq_eq_false_iff_ne, beq_eq_false_iff_ne]
  exact or_iff_not_imp_left.mpr fun ht => h (not_not.mp ht)

theorem receiveRequest_other {s : State} {dest : Byte} {p : List Byte} (hl : p.length ≤ 56) (hn : s.node ≠ some dest) :
    s.receiveRequest dest p
      = (s.countD PortCounts.addReceived).passToField { dest := dest, typ := typMgmtReq, payload := p } := by
  unfold State.receiveRequest
  simp only
  rw [payloadFits_eq, decide_eq_true hl, forNode_eq_false fun _ => hn]
  rfl

/-- Settles O11: a frame the part has no business with is received and passed, or received and forwarded. -/
theorem framesPassUnchanged : Obligations.FramesPassUnchanged := by
  intro s f hq hl
  have hset := hq.1.1
  refine ⟨fun c hc => ?_, fun hp hg => ?_⟩
  · have hp : ((s.countD PortCounts.addReceived).passToField f).settled := passToField_settled (countD_settled hset _) f
    rcases hc with ⟨rfl, hs, hk, hi, hn⟩ | ⟨rfl, ht, hn⟩
    · have he : s.receivePass f = _ := receivePass_eq hl hs hk hi (forNode_eq_false hn)
      exact passes_of_event f (event_eq hq he hp)
    · obtain ⟨dest, typ, payload⟩ := f
      obtain rfl : typ = typMgmtReq := ht
      have he : s.receiveRequest dest payload = _ := receiveRequest_other hl hn
      exact passes_of_event _
        (arrival_eq (f := fun s => s.receiveRequest dest payload) hq he hp)
  · have he : s.receiveForward f = (s.countF PortCounts.addReceived).forwardUp f := by
      have ha : isTappedType f.typ = false := by
        simp only [isTappedType, Bool.or_eq_false_iff, beq_eq_false_iff_ne]
        exact ⟨hp, hg⟩
      unfold State.receiveForward
      rw [payloadFits_eq, decide_eq_true hl, ha]
      rfl
    have hc : exec (.fieldFrameForward f) s = .next ((s.countF PortCounts.addReceived).forwardUp f) :=
      event_eq hq he (forwardUp_settled (countF_settled hset _) f)
    exact ⟨fun hr => by rw [hc, forwardUp_room (s := s.countF _) hr]; rfl,
      fun hr => by rw [hc, forwardUp_full (s := s.countF _) hr]⟩

/-! ### The Admission Unit's frames -/

theorem receiveSetpoint_fits {s : State} {dest : Byte} {p : List Byte} (hl : p.length = 7) :
    s.receiveSetpoint dest p
      = (s.countD PortCounts.addReceived).takeSetpoint { dest := dest, typ := typSetpoint, payload := p } := by
  unfold State.receiveSetpoint
  rw [payloadFits_eq, hl]
  rfl

/-- A SETPOINT for a gate of the part is judged (R103). -/
theorem takeSetpoint_gate {s : State} {frame : LineFrame} {g : Gate} (hg : (readSetpoint frame.payload).gate = g.1) :
    s.takeSetpoint frame = s.judgeSetpoint g (readSetpoint frame.payload) := by
  have hle : ¬ 63 < (readSetpoint frame.payload).gate := by have := g.2; omega
  unfold State.takeSetpoint
  simp only
  rw [if_neg hle, hg, toFin?_val]

theorem takeSetpoint_high {s : State} {frame : LineFrame} (h : 48 ≤ (readSetpoint frame.payload).gate)
    (h' : (readSetpoint frame.payload).gate ≤ 63) : s.takeSetpoint frame = s.passToField frame := by
  have hn : toFin? 48 (readSetpoint frame.payload).gate = none := by
    unfold toFin?
    exact dif_neg (Nat.not_lt.mpr h)
  unfold State.takeSetpoint
  simp only
  rw [if_neg (Nat.not_lt.mpr h'), hn]

theorem takeSetpoint_beyond {s : State} {frame : LineFrame} (h : 63 < (readSetpoint frame.payload).gate) :
    s.takeSetpoint frame = s.countD PortCounts.addDamaged := if_pos h

theorem receiveKeepalive_fits {s : State} {p : List Byte} (hl : p.length = 2) :
    s.receiveKeepalive p = (s.countD PortCounts.addReceived).takeKeepalive (byteAt p 0) (byteAt p 1) := by
  unfold State.receiveKeepalive
  rw [payloadFits_eq, hl]
  rfl

theorem receiveInflow_fits {s : State} {p : List Byte} (hl : p.length = 5) :
    s.receiveInflow p = (s.countD PortCounts.addReceived).takeInflow (byteAt p 0) (byteAt p 1) (fieldAt p 2 3) := by
  unfold State.receiveInflow
  rw [payloadFits_eq, hl]
  rfl

/-- Settles O14: by the length of the payload and the gate byte. -/
theorem highGatesPassAndMalformedFramesDrop : Obligations.HighGatesPassAndMalformedFramesDrop := by
  intro s dest p hq
  have hset := hq.1.1
  refine ⟨fun hl hlow hhigh => ?_, fun c hl hc => ?_, fun c hl hc => ?_⟩
  · have he : s.receiveSetpoint dest p = _ := (receiveSetpoint_fits hl).trans (takeSetpoint_high hlow hhigh)
    exact passes_of_event _ (event_eq hq he (passToField_settled (countD_settled hset _) _))
  · have hcount : ((s.countD PortCounts.addReceived).countD PortCounts.addDamaged).settled :=
      countD_settled (countD_settled hset _) _
    have hfit : payloadFits p = true := decide_eq_true hl
    rcases hc with ⟨rfl, hbad⟩ | ⟨rfl, hbad⟩ | ⟨rfl, hbad⟩
    · have he : s.receiveSetpoint dest p = (s.countD PortCounts.addReceived).countD PortCounts.addDamaged := by
        by_cases h7 : p.length = 7
        · exact (receiveSetpoint_fits h7).trans (takeSetpoint_beyond (hbad.resolve_left (not_not.mpr h7)))
        · unfold State.receiveSetpoint
          rw [hfit, if_neg (by decide)]
          exact if_neg h7
      exact event_eq hq he hcount
    · have he : s.receiveKeepalive p = (s.countD PortCounts.addReceived).countD PortCounts.addDamaged := by
        unfold State.receiveKeepalive
        rw [hfit, if_neg (by decide)]
        exact if_neg hbad
      exact event_eq hq he hcount
    · have he : s.receiveInflow p = (s.countD PortCounts.addReceived).countD PortCounts.addDamaged := by
        unfold State.receiveInflow
        rw [hfit, if_neg (by decide)]
        exact if_neg hbad
      exact event_eq hq he hcount
  · have hcount : (s.countD PortCounts.addDamaged).settled := countD_settled hset _
    have hfit : payloadFits p = false := decide_eq_false (Nat.not_le.mpr hl)
    rcases hc with rfl | rfl | rfl | rfl
    · have he : s.receiveSetpoint dest p = s.countD PortCounts.addDamaged := by
        unfold State.receiveSetpoint
        rw [hfit]
        rfl
      exact event_eq hq he hcount
    · have he : s.receiveKeepalive p = s.countD PortCounts.addDamaged := by
        unfold State.receiveKeepalive
        rw [hfit]
        rfl
      exact event_eq hq he hcount
    · have he : s.receiveInflow p = s.countD PortCounts.addDamaged := by
        unfold State.receiveInflow
        rw [hfit]
        rfl
      exact event_eq hq he hcount
    · have he : s.receiveRequest dest p = s.countD PortCounts.addDamaged := by
        unfold State.receiveRequest
        rw [hfit]
        rfl
      exact arrival_eq (f := fun s => s.receiveRequest dest p) hq he hcount

/-! ### Authority (R100, R101) -/

theorem authorityFault_unknown {s : State} {issuer : Nat} {override : Bool}
    (h : issuer > 63 ∨ s.active.authFor issuer = none) : s.authorityFault issuer override = some .unknownIssuer := by
  have ha : s.authority issuer = none := by
    unfold State.authority
    rcases h with h | h
    · exact if_neg (Nat.not_le.mpr h)
    · rw [h, ite_self]
  unfold State.authorityFault
  rw [ha]

theorem authority_eq {s : State} {issuer : Nat} {e : AuthEntry} (h : issuer ≤ 63) (ha : s.active.authFor issuer = some e) :
    s.authority issuer = some e := by
  unfold State.authority
  rw [if_pos h, ha]

theorem authorityFault_noRight {s : State} {issuer : Nat} {override : Bool} {e : AuthEntry} (ha : s.authority issuer = some e)
    (h : e.command = false ∨ (override = true ∧ e.override = false)) : s.authorityFault issuer override = some .noRight := by
  unfold State.authorityFault
  rw [ha]
  refine if_pos ?_
  rcases h with h | ⟨h, h'⟩
  · rw [h]
    rfl
  · rw [h, h', Bool.or_eq_true]
    exact .inr rfl

theorem authorityFault_none {s : State} {issuer : Nat} {override : Bool} {e : AuthEntry} (ha : s.authority issuer = some e)
    (hc : e.command = true) (ho : override = true → e.override = true) : s.authorityFault issuer override = none := by
  unfold State.authorityFault
  rw [ha]
  refine if_neg ?_
  rw [hc]
  cases override with
  | false => nofun
  | true => rw [ho rfl]; nofun

theorem inIssuerWindow_eq {s : State} {issuer gate : Nat} {e : AuthEntry} (ha : s.authority issuer = some e) :
    s.inIssuerWindow issuer gate = e.inWindow gate := by
  unfold State.inIssuerWindow
  rw [ha]

/-- A rejected frame of port D is received, its cause counted and its notice sent (R104). -/
theorem rejects_of_event {s : State} (h : s.quiet) {c : Instr} {f : State → State} {frame : AdmissionFrame}
    {issuer target : Nat} {cause : RejectCause} {value : Nat} (hc : exec c s = s.event f)
    (hf : f s = (s.countD PortCounts.addReceived).reject frame issuer target cause value) :
    Rejects c s frame issuer target cause value := by
  have hbase : State.settled { s.countD PortCounts.addReceived with rejects := s.rejects.add cause } :=
    h.1.1.of_same rfl rfl rfl rfl rfl
  have hset : (f s).settled := hf ▸ notify_settled hbase _ _ _ _
  refine ⟨f s, hc.trans (event_eq h rfl hset), ?_⟩
  rw [hf]
  have hsame := notify_sameBut { s.countD PortCounts.addReceived with rejects := s.rejects.add cause } .admitReject (.issuer issuer)
    (frame.code * 4096 + cause.code * 256 + target) value
  have hport := quiet_portD.notify { s.countD PortCounts.addReceived with rejects := s.rejects.add cause } .admitReject
    (.issuer issuer) (frame.code * 4096 + cause.code * 256 + target) value
  refine ⟨hsame .rejects (by decide), ?_, ?_, ?_, ?_⟩
  · exact notify_sent { s.countD PortCounts.addReceived with rejects := s.rejects.add cause } _ _ _ _
  · unfold State.reject State.notify
    split <;> rfl
  · unfold State.reject State.notify
    split <;> rfl
  · refine SameBut.trans (t := { s.countD PortCounts.addReceived with rejects := s.rejects.add cause }) ?_
      (hsame.mono (by decide))
    intro p hp
    cases p <;> first | exact ⟨rfl, rfl⟩ | rfl | simp at hp

theorem judgeSetpoint_fault {s : State} {g : Gate} {f : SetpointFields} {cause : RejectCause}
    (h : s.setpointFault f g = some cause) :
    s.judgeSetpoint g f = s.reject .setpoint f.issuer f.gate cause (packValue f.tag f.opening) := by
  unfold State.judgeSetpoint
  rw [h]

/-- The checks of a SETPOINT behind its authority: window, binding, availability (R103). -/
theorem setpointFault_behind {s : State} {g : Gate} {f : SetpointFields} {e : AuthEntry} (ha : s.authority f.issuer = some e)
    (hc : e.command = true) (ho : f.override = true → e.override = true) :
    s.setpointFault f g = if e.inWindow f.gate = false then some .outOfWindow
      else if s.active.bound g = false then some .gateUnbound
      else if (s.chan g).state.takes = false then some .gateUnavailable else none := by
  unfold State.setpointFault
  rw [authorityFault_none ha hc ho, inIssuerWindow_eq ha]
  simp only [Bool.not_eq_true']

theorem judgeForStation_fault {s : State} {issuer station : Nat} {cause : RejectCause}
    (h : s.authorityFault issuer false = some cause) : s.judgeForStation issuer station = .error cause := by
  unfold State.judgeForStation
  rw [h]

theorem judgeForStation_absent {s : State} {issuer station : Nat} (h : s.authorityFault issuer false = none)
    (hk : ∀ k : StationId, station = k.1 → (s.stationEntry k).isPresent = false) :
    s.judgeForStation issuer station = .error .stationAbsent := by
  unfold State.judgeForStation
  rw [h]
  simp only
  split
  · rfl
  · next k hn => rw [hk k (toFin?_eq_some.mp hn), if_neg (by decide)]

theorem judgeForStation_admitted {s : State} {issuer : Nat} {k : StationId} (h : s.authorityFault issuer false = none)
    (hk : (s.stationEntry k).isPresent = true) : s.judgeForStation issuer k.1 = .ok k := by
  unfold State.judgeForStation
  rw [h, toFin?_val]
  exact if_pos hk

/-- A KEEPALIVE or an INFLOW whose judging finds a cause is rejected for it. -/
theorem rejects_forStation {s : State} (h : s.quiet) {c : Instr} {frame : AdmissionFrame} {value : Nat} {dest : Byte}
    {p : List Byte}
    (hc : (c = .keepalive dest p ∧ frame = .keepalive ∧ p.length = 2 ∧ value = 0)
      ∨ (c = .inflow dest p ∧ frame = .inflow ∧ p.length = 5 ∧ value = fieldAt p 2 3))
    {cause : RejectCause} (hj : s.judgeForStation (byteAt p 0) (byteAt p 1) = .error cause) :
    Rejects c s frame (byteAt p 0) (byteAt p 1) cause value := by
  have hj' : (s.countD PortCounts.addReceived).judgeForStation (byteAt p 0) (byteAt p 1) = .error cause := hj
  rcases hc with ⟨rfl, rfl, hl, rfl⟩ | ⟨rfl, rfl, hl, rfl⟩
  · refine rejects_of_event h (f := fun s => s.receiveKeepalive p) rfl ((receiveKeepalive_fits hl).trans ?_)
    unfold State.takeKeepalive
    rw [hj']
  · refine rejects_of_event h (f := fun s => s.receiveInflow p) rfl ((receiveInflow_fits hl).trans ?_)
    unfold State.takeInflow
    rw [hj']

/-- Settles O12: the checks in their order. -/
theorem rejectedFramesAreOnlyCounted : Obligations.RejectedFramesAreOnlyCounted := by
  intro s dest p hq
  refine ⟨fun f g hl hf hg => ?_, fun c frame value hc => ⟨fun hun => ?_, fun e hi ha => ⟨fun hr => ?_, fun hr hk => ?_⟩⟩⟩
  · subst hf
    have hrej : ∀ cause, s.setpointFault (readSetpoint p) g = some cause → Rejects (.setpoint dest p) s .setpoint
        (readSetpoint p).issuer g.1 cause (packValue (readSetpoint p).tag (readSetpoint p).opening) := fun cause hcause => by
      rw [← hg]
      refine rejects_of_event hq (f := fun s => s.receiveSetpoint dest p) rfl ?_
      exact (receiveSetpoint_fits hl).trans ((takeSetpoint_gate hg).trans
        (judgeSetpoint_fault (s := s.countD PortCounts.addReceived) hcause))
    have hauth : ∀ cause, s.authorityFault (readSetpoint p).issuer (readSetpoint p).override = some cause →
        s.setpointFault (readSetpoint p) g = some cause := fun cause h => by
      unfold State.setpointFault
      rw [h]
    refine ⟨fun hun => hrej _ (hauth _ (authorityFault_unknown hun)), fun e hi ha => ⟨fun hr => ?_, fun hc ho => ?_⟩⟩
    · exact hrej _ (hauth _ (authorityFault_noRight (authority_eq hi ha) hr))
    · have hbehind := setpointFault_behind (g := g) (authority_eq hi ha) hc ho
      rw [hg] at hbehind
      refine ⟨fun hw => hrej _ ?_, fun hw hb => hrej _ ?_, fun hw hb ht => hrej _ ?_⟩
      · rw [hbehind, if_pos hw]
      · rw [hbehind, hw, if_neg (by decide), if_pos hb]
      · rw [hbehind, hw, if_neg (by decide), hb, if_neg (by decide), if_pos ht]
  · exact rejects_forStation hq hc (judgeForStation_fault (authorityFault_unknown hun))
  · exact rejects_forStation hq hc (judgeForStation_fault (authorityFault_noRight (authority_eq hi ha) (.inl hr)))
  · exact rejects_forStation hq hc (judgeForStation_absent (authorityFault_none (authority_eq hi ha) hr nofun) hk)

/-- Settles O15: an admitted INFLOW writes the local inflow. -/
theorem inflowSetsTheLocalInflow : Obligations.InflowSetsTheLocalInflow := by
  intro s dest p k e hq hl hi ha hc hk hp
  have hj : (s.countD PortCounts.addReceived).judgeForStation (byteAt p 0) (byteAt p 1) = .ok k := by
    rw [hk]
    exact judgeForStation_admitted (s := s.countD PortCounts.addReceived) (authorityFault_none (authority_eq hi ha) hc nofun) hp
  have he : s.receiveInflow p
      = (s.countD PortCounts.addReceived).setStation k { s.station k with qLocal := fieldAt p 2 3 } := by
    rw [receiveInflow_fits hl]
    unfold State.takeInflow
    rw [hj]
    rfl
  exact event_eq hq he (hq.1.1.of_same rfl rfl rfl rfl rfl)

/-- Settles O13: the masked words agree when their six digits do. -/
theorem issuerWindowComparesSixDigits : Obligations.IssuerWindowComparesSixDigits := by
  intro e gate
  have hbits : e.inWindow gate = true ↔ ∀ i < 6, e.mask.testBit i = true → gate.testBit i = e.base.testBit i := by
    unfold AuthEntry.inWindow
    rw [beq_iff_eq]
    constructor
    · intro h i hi hm
      have := congrArg (fun b => b.getLsbD i) h
      simpa only [BitVec.getLsbD_and, BitVec.getLsbD_ofNat, hi, hm, decide_true, Bool.true_and, Bool.and_true] using this
    · intro h
      refine BitVec.eq_of_getLsbD_eq fun i hi => ?_
      have := h i hi
      simp only [BitVec.getLsbD_and, BitVec.getLsbD_ofNat, hi, decide_true, Bool.true_and]
      cases hm : e.mask.testBit i with
      | false => rw [Bool.and_false, Bool.and_false]
      | true => rw [this hm]
  refine ⟨hbits, fun hm => hbits.mpr fun i _ h => ?_, fun hm hg hb => hbits.trans ⟨fun h => ?_, fun h _ _ _ => by rw [h]⟩⟩
  · rw [hm, Nat.zero_testBit] at h
    cases h
  · refine Nat.eq_of_testBit_eq fun i => ?_
    rcases Nat.lt_or_ge i 6 with hi | hi
    · refine h i hi ?_
      rw [hm]
      exact (Nat.testBit_two_pow_sub_one 6 i).trans (decide_eq_true hi)
    · have hpow : 64 ≤ 2 ^ i := Nat.pow_le_pow_right (n := 2) (by decide) hi
      rw [Nat.testBit_lt_two_pow (by omega), Nat.testBit_lt_two_pow (by omega)]

end Sys2Proof.Machine
end

section
/-! Numbers in bytes, most significant first, and the frames of the line: which bytes are undamaged (R139). -/

namespace Sys2Proof

theorem beNat_concat (l : List Byte) (b : Byte) : beNat (l ++ [b]) = beNat l * 256 + b.toNat := by
  simp [beNat]

@[simp] theorem length_beBytes (n k : Nat) : (beBytes n k).length = n := by
  induction n generalizing k with
  | zero => rfl
  | succ n ih => rw [beBytes, List.length_append, ih]; rfl

theorem beNat_lt (l : List Byte) : beNat l < 256 ^ l.length := by
  induction l using List.reverseRecOn with
  | nil => decide
  | append_singleton l b ih =>
    rw [beNat_concat, List.length_append, List.length_singleton, Nat.pow_succ]
    have := b.isLt
    omega

/-- The bytes of a number spell it, but for the digits dropped. -/
theorem beNat_beBytes (n k : Nat) : beNat (beBytes n k) = k % 256 ^ n := by
  induction n generalizing k with
  | zero => rw [Nat.pow_zero, Nat.mod_one]; rfl
  | succ n ih =>
    have hb : (byteOf k).toNat = k % 256 := BitVec.toNat_ofNat ..
    rw [beBytes, beNat_concat, ih, hb, Nat.pow_succ', Nat.mod_mul]
    omega

theorem beNat_beBytes_of_lt {n k : Nat} (h : k < 256 ^ n) : beNat (beBytes n k) = k := by
  rw [beNat_beBytes, Nat.mod_eq_of_lt h]

/-- The number bytes spell has those bytes. -/
theorem beBytes_beNat (l : List Byte) : beBytes l.length (beNat l) = l := by
  induction l using List.reverseRecOn with
  | nil => rfl
  | append_singleton l b ih =>
    have hlt := b.isLt
    have hdiv : (beNat l * 256 + b.toNat) / 256 = beNat l := by omega
    have hbyte : byteOf (beNat l * 256 + b.toNat) = b := by
      refine BitVec.eq_of_toNat_eq ?_
      rw [byteOf, BitVec.toNat_ofNat]
      omega
    rw [beNat_concat, List.length_append, List.length_singleton, beBytes, hdiv, hbyte, ih]

theorem byteOf_toNat (b : Byte) : byteOf b.toNat = b := by
  rw [byteOf, BitVec.ofNat_toNat, BitVec.setWidth_eq]

theorem toNat_byteOf {k : Nat} (h : k < 256) : (byteOf k).toNat = k := by
  rw [byteOf, BitVec.toNat_ofNat, Nat.mod_eq_of_lt h]

theorem length_checked (f : LineFrame) : f.checked.length = f.payload.length + 3 := rfl

theorem length_bytes (f : LineFrame) : f.bytes.length = f.payload.length + 5 := by
  rw [LineFrame.bytes, List.length_append, length_checked, length_beBytes]

theorem frameDamaged_eq_false {bytes : List Byte} : frameDamaged bytes true = false ↔
    5 ≤ bytes.length ∧ bytes.length ≤ 61 ∧ byteAt bytes 2 = bytes.length - 5
      ∧ fieldAt bytes (bytes.length - 2) 2 = (crc16 (bytes.take (bytes.length - 2))).toNat := by
  have hmax : Config.payloadMax = 56 := rfl
  unfold frameDamaged
  simp only [Bool.not_true, Bool.false_or, Bool.or_eq_false_iff, decide_eq_false_iff_not, Nat.not_lt, hmax, not_not]
  constructor
  · rintro ⟨⟨⟨⟨h1, h2⟩, _⟩, h4⟩, h5⟩
    exact ⟨h1, h2, h4, h5⟩
  · rintro ⟨h1, h2, h4, h5⟩
    exact ⟨⟨⟨⟨h1, h2⟩, by omega⟩, h4⟩, h5⟩

/-- The bytes of a frame whose payload fits are undamaged. -/
theorem bytes_undamaged {f : LineFrame} (h : f.payload.length ≤ 56) : frameDamaged f.bytes true = false := by
  have hlen := length_bytes f
  have hcut : f.bytes.length - 2 = f.checked.length := by rw [hlen, length_checked]; omega
  have hcrc := (crc16 f.checked).isLt
  refine frameDamaged_eq_false.mpr ⟨by omega, by omega, ?_, ?_⟩
  · rw [hlen, Nat.add_sub_cancel]
    exact toNat_byteOf (by omega)
  · rw [hcut, LineFrame.bytes, List.take_left, fieldAt, List.drop_left, List.take_of_length_le (by rw [length_beBytes]),
      beNat_beBytes_of_lt hcrc]

/-- Undamaged bytes are a frame's whose payload fits. -/
theorem bytes_of_undamaged {bytes : List Byte} (h : frameDamaged bytes true = false) :
    ∃ f : LineFrame, f.payload.length ≤ 56 ∧ bytes = f.bytes := by
  obtain ⟨h5, h61, hbyte, hcrc⟩ := frameDamaged_eq_false.mp h
  obtain ⟨a, b, c, rest, rfl⟩ : ∃ a b c rest, bytes = a :: b :: c :: rest := by
    match bytes, h5 with
    | a :: b :: c :: rest, _ => exact ⟨a, b, c, rest, rfl⟩
  simp only [List.length_cons] at h5 h61 hbyte hcrc
  have hlen : (rest.take (rest.length - 2)).length = rest.length - 2 := by rw [List.length_take]; omega
  refine ⟨{ dest := a, typ := b, payload := rest.take (rest.length - 2) }, by simp only; omega, ?_⟩
  have hchecked : ({ dest := a, typ := b, payload := rest.take (rest.length - 2) } : LineFrame).checked
      = (a :: b :: c :: rest).take (rest.length + 1 + 1 + 1 - 2) := by
    have hc : byteOf (rest.length - 2) = c := by
      rw [show rest.length - 2 = c.toNat from by
        rw [show c.toNat = _ from hbyte]
        omega]
      exact byteOf_toNat c
    rw [LineFrame.checked, hlen, hc, show rest.length + 1 + 1 + 1 - 2 = rest.length - 2 + 1 + 1 + 1 by omega]
    rfl
  have htail : beBytes 2 (fieldAt (a :: b :: c :: rest) (rest.length + 1 + 1 + 1 - 2) 2)
      = (a :: b :: c :: rest).drop (rest.length + 1 + 1 + 1 - 2) := by
    have hl : ((a :: b :: c :: rest).drop (rest.length + 1 + 1 + 1 - 2)).length = 2 := by
      rw [List.length_drop]
      simp only [List.length_cons]
      omega
    have hspell := beBytes_beNat ((a :: b :: c :: rest).drop (rest.length + 1 + 1 + 1 - 2))
    rw [hl] at hspell
    rw [fieldAt, List.take_of_length_le hl.le, hspell]
  rw [LineFrame.bytes, hchecked, ← hcrc, htail, List.take_append_drop]

end Sys2Proof

namespace Sys2Proof.Machine

/-- Settles O10: damaged bytes count, undamaged ones are a frame's, and the check value by evaluation. -/
theorem damagedFramesAreOnlyCounted : Obligations.DamagedFramesAreOnlyCounted := by
  refine ⟨fun s bytes marked hq => ⟨fun hd => ⟨?_, ?_⟩, fun hd port => ?_⟩, fun _ => rfl, fun _ => bytes_undamaged,
    fun _ => bytes_of_undamaged, by decide +kernel⟩
  · have he : s.receiveDamaged .d bytes marked = s.countD PortCounts.addDamaged := if_pos hd
    exact event_eq hq he (countD_settled hq.1.1 PortCounts.addDamaged)
  · have he : s.receiveDamaged .f bytes marked = s.countF PortCounts.addDamaged := if_pos hd
    exact event_eq hq he (countF_settled hq.1.1 PortCounts.addDamaged)
  · have he : s.receiveDamaged port bytes marked = s := by
      unfold State.receiveDamaged
      rw [hd]
      rfl
    exact event_eq hq he hq.1.1

end Sys2Proof.Machine
end

section
/-! What a reset leaves: by pin, and by request (R149, R153, R164, R165). -/

namespace Sys2Proof.Machine

/-- What a reset comes to: the blocks at their reset values, and its notices in UP_OWN. -/
theorem resetAll_eq (s : State) (kind : ResetKind) :
    s.resetAll kind = s.blocksReset.setPortD { PortD.reset with own := resetNotices s s.blocksReset kind.code } := by
  unfold State.resetAll resetNotices
  simp only
  split <;> rfl

theorem resetAll_settled (s : State) (kind : ResetKind) : (s.resetAll kind).settled := by
  rw [resetAll_eq, settled_iff]
  exact ⟨rfl, rfl, nofun⟩

theorem restartedTimer_eq (e : StationEntry) :
    (if e.isPresent then restartedTimer e else none)
      = if e.isPresent ∧ 0 < e.silenceCount then some e.silencePeriod else none := by
  unfold restartedTimer
  split
  · next hp => simp [hp]
  · next hp => simp [hp]

/-- A reset leaves every block at its reset values, for the plan that the retained copy of `s` gives. -/
theorem resetLeaves_resetAll {s u : State} (h : u.store = s.store) (kind : ResetKind) :
    ResetLeaves s (u.resetAll kind) kind.code := by
  rw [resetAll_eq]
  have hactive : (u.blocksReset.setPortD
      { PortD.reset with own := resetNotices u u.blocksReset kind.code }).active = u.store.restored := rfl
  refine
    { active := by rw [← h]; rfl
      store := ⟨rfl, rfl, rfl, by rw [← h]; rfl⟩
      node := rfl
      portF := rfl
      portD := ?_
      inbox := ⟨rfl, rfl⟩
      chans := fun g => Tab.get_gen ..
      stations := fun k hk => (Tab.get_gen ..).trans (if_pos hk)
      silence := fun k => ?_
      reaches := fun k hk => (Tab.get_gen ..).trans (if_pos hk)
      gangs := fun c hc => (Tab.get_gen ..).trans (if_pos hc)
      rejects := rfl
      armed := fun n => Tab.get_gen ..
      report := rfl }
  · unfold resetNotices
    rw [h]
    rfl
  · refine (Tab.get_gen ..).trans ?_
    rw [silenceReset, restartedTimer_eq]
    rfl

/-- Settles O4: the two resets by pin are the reset, with the clock at its start at a power-on. -/
theorem resetsLeaveTheResetValues : Obligations.ResetsLeaveTheResetValues := by
  intro x s
  have hleaves : ∀ (u : State) kind, u.store = s.store → ResetLeaves s (u.resetAll kind) kind.code := fun _ kind h =>
    resetLeaves_resetAll h kind
  refine ⟨⟨_, done_of_settled (resetAll_settled _ _), hleaves _ .powerOn rfl, ?_⟩,
    ⟨_, done_of_settled (resetAll_settled _ _), hleaves _ .external rfl, ?_⟩⟩
  · rw [resetAll_eq]
    exact ⟨rfl, rfl, rfl, rfl, rfl, rfl, rfl⟩
  · rw [resetAll_eq]
    exact ⟨rfl, rfl, rfl, rfl, rfl, rfl, rfl⟩

/-! ### Requests answered by their row -/

/-- The row of a request other than SET_CLOCK answers it. -/
theorem row_of_asks {s u : State} {p : List Byte} {r : Request} {row : Request → Bool} (hs : s.ready) (ha : s.asks p r)
    (hrow : row r = true) (hr : r ≠ .setClock) (hu : s.respond p = u) : s.row row = .next u := by
  obtain ⟨hi, ho, _, hread⟩ := ha
  exact row_answers hs hi ho (by rw [hread]; exact hrow)
    (beforeTaking_of (.inl (setsClock_of_other (by rw [hread]; exact hr)))) hu

/-- A request refused by its rule is answered with the refusal. -/
theorem row_refused {s : State} {p : List Byte} {r : Request} {row : Request → Bool} {status : Status} {results : List Byte}
    (hs : s.ready) (ha : s.asks p r) (hrow : row r = true) (hc : r ≠ .setClock)
    (hh : s.reserve.handle r (reqArgs p) = { state := s.reserve, status := status, results := results })
    (hr : r ≠ .restart ∨ status ≠ .done) : s.row row = .next (s.answered p status results) :=
  row_of_asks hs ha hrow hc (respond_of_refused hs.1 ha hh hr)

/-- A granted RESTART resets the part. -/
theorem respond_restart {s : State} {p : List Byte} (ha : s.asks p .restart) (hargs : reqArgs p = [])
    (hw : s.store.writing = false) : s.respond p = (s.answered p .done []).resetAll .request := by
  have hh : s.reserve.handle .restart (reqArgs p) = s.reserve.grant [] := by
    show s.reserve.handleRestart (reqArgs p) = _
    unfold State.handleRestart
    rw [if_pos hargs, show s.reserve.store.writing = false from hw, if_neg (by decide)]
  unfold State.respond
  simp only
  rw [judgeRequest_asks ha, hh]
  unfold State.afterReply
  rw [if_pos ⟨ha.2.2.2, rfl⟩]
  exact resetAll_settled _ _

/-- Settles O5: a RESTART is granted, refused for the write in flight, or refused for its arguments. -/
theorem restartResetsThePart : Obligations.RestartResetsThePart := by
  intro s p hs ha
  refine ⟨fun hargs hw => ⟨_, row_of_asks hs ha rfl nofun (respond_restart ha hargs hw),
      resetLeaves_resetAll (s := s) (u := s.answered p .done []) rfl .request, ?_⟩,
    fun hargs hw => row_refused hs ha rfl nofun ?_ (.inr nofun), fun hargs => row_refused hs ha rfl nofun ?_ (.inr nofun)⟩
  · rw [resetAll_eq]
    exact ⟨rfl, rfl, rfl, rfl, rfl, rfl, rfl⟩
  · show s.reserve.handleRestart (reqArgs p) = _
    unfold State.handleRestart
    rw [if_pos hargs, show s.reserve.store.writing = true from hw]
    rfl
  · show s.reserve.handleRestart (reqArgs p) = _
    unfold State.handleRestart
    rw [if_neg hargs]
    rfl

end Sys2Proof.Machine
end

section
/-! Judging, and the beginning of a frame on port F (R11, R13, R144 to R146). -/

namespace Sys2Proof.Machine

/-! ### What judging can do -/

theorem SameBut.refl (ps : List Part) (s : State) : SameBut ps s s := fun p _ => by
  cases p <;> first | exact ⟨rfl, rfl⟩ | rfl

theorem setPortF_sameBut (s : State) (p : PortF) : SameBut [.portF] s (s.setPortF p) := by
  intro x hx
  cases x <;> first | exact ⟨rfl, rfl⟩ | rfl | simp at hx

theorem countD_sameBut (s : State) (f : PortCounts → PortCounts) : SameBut [.portD] s (s.countD f) := by
  intro x hx
  cases x <;> first | exact ⟨rfl, rfl⟩ | rfl | simp at hx

theorem setChan_sameBut (s : State) (g : Gate) (c : Channel) : SameBut [.chans] s (s.setChan g c) := by
  intro x hx
  cases x <;> first | exact ⟨rfl, rfl⟩ | rfl | simp at hx

theorem setReport_sameBut (s : State) (r : Report) : SameBut [.report] s (s.setReport r) := by
  intro x hx
  cases x <;> first | exact ⟨rfl, rfl⟩ | rfl | simp at hx

theorem enter_sameBut (s : State) (g : Gate) (st : ChanState) : SameBut [.chans, .portF] s (s.enter g st) := by
  rw [enter_eq]
  split
  · exact (setChan_sameBut _ _ _).mono (by decide)
  · exact ((setChan_sameBut _ _ _).mono (by decide)).trans ((setPortF_sameBut _ _).mono (by decide))

theorem endTrace_sameBut (s : State) (c : EndCause) : SameBut [.report] s (s.endTrace c) := by
  unfold State.endTrace
  split
  · exact SameBut.refl _ _
  · exact setReport_sameBut _ _

theorem finish_sameBut (s : State) : SameBut [.portF, .report] s s.finish := by
  have hend : ∀ c, SameBut [.portF, .report] s ((s.setPortF { s.portF with
      waitUrgent := s.portF.waitUrgent.settle, waitRoutine := s.portF.waitRoutine.settle }).endTrace c) := fun c =>
    ((setPortF_sameBut _ _).mono (by decide)).trans ((endTrace_sameBut _ _).mono (by decide))
  have hstay : SameBut [.portF, .report] s (s.setPortF { s.portF with
      waitUrgent := s.portF.waitUrgent.settle, waitRoutine := s.portF.waitRoutine.settle }) :=
    (setPortF_sameBut _ _).mono (by decide)
  unfold State.finish
  simp only
  split
  · exact hstay
  · split
    case h_6 =>
      split
      · exact hstay
      · exact hend _
    case h_7 => exact hstay
    case h_8 => exact hstay
    all_goals exact hend _

theorem noteEnqueued_sameBut (s : State) (g : Gate) : SameBut [.report] s (s.noteEnqueued g) := by
  unfold State.noteEnqueued
  split
  · split
    · exact setReport_sameBut _ _
    · exact SameBut.refl _ _
  · exact SameBut.refl _ _

theorem startIncrement_sameBut (s : State) (g : Gate) (target : Nat) (w : FieldQueue) :
    SameBut [.chans, .portF, .report] s (s.startIncrement g target w) := by
  unfold State.startIncrement
  simp only
  refine SameBut.trans ?_ ((noteEnqueued_sameBut _ _).mono (by decide))
  refine SameBut.trans ?_ ((setPortF_sameBut _ _).mono (by decide))
  exact ((setChan_sameBut _ _ _).mono (by decide)).trans ((enter_sameBut _ _ _).mono (by decide))

/-- The start of an increment places its frame and takes the channel out of the wait lists. -/
theorem startIncrement_portF (s : State) (g : Gate) (target : Nat) (w : FieldQueue) :
    (s.startIncrement g target w).portF
      = ({ s.portF with waitUrgent := s.portF.waitUrgent.leave g, waitRoutine := s.portF.waitRoutine.leave g } : PortF).push w
          (incrementFrame g target (((s.chan g).tag + 1) % 65536)) := by
  unfold State.startIncrement
  simp only
  rw [(noteEnqueued_sameBut _ _) .portF (by decide)]
  rfl

/-- Judging starts the increment of a channel with work, turn and room, or writes the wait lists alone (R11). -/
theorem judge_cases (s : State) (g : Gate) :
    (∃ target, s.workTarget g = some target ∧ s.mayStart g = true ∧ s.portF.room (s.queueFor g) = true
      ∧ s.judge g = s.startIncrement g target (s.queueFor g))
    ∨ ∃ u r, s.judge g = s.setPortF { s.portF with waitUrgent := u, waitRoutine := r } := by
  unfold State.judge
  split
  · next target hw =>
    split
    · next hm =>
      split
      · next hr => exact .inl ⟨target, hw, hm, hr, rfl⟩
      · refine .inr ?_
        unfold State.joinWait
        split
        · exact ⟨_, _, rfl⟩
        · exact ⟨_, _, rfl⟩
    · exact .inr ⟨_, _, rfl⟩
  · exact .inr ⟨_, _, rfl⟩

theorem judge_start {s : State} {g : Gate} {target : Nat} (hw : s.workTarget g = some target) (hm : s.mayStart g = true)
    (hr : s.portF.room (s.queueFor g) = true) : s.judge g = s.startIncrement g target (s.queueFor g) := by
  unfold State.judge
  rw [hw]
  simp only
  rw [if_pos hm, if_pos hr]

theorem judge_sameBut (s : State) (g : Gate) : SameBut [.chans, .portF, .report] s (s.judge g) := by
  rcases judge_cases s g with ⟨_, _, _, _, he⟩ | ⟨_, _, he⟩ <;> rw [he]
  · exact startIncrement_sameBut _ _ _ _
  · exact (setPortF_sameBut _ _).mono (by decide)

/-- A full queue takes no frame at a judging. -/
theorem judge_full (s : State) (g : Gate) (w : FieldQueue) (hf : s.portF.room w = false) :
    (s.judge g).portF.frames w = s.portF.frames w := by
  rcases judge_cases s g with ⟨_, _, _, hr, he⟩ | ⟨_, _, he⟩ <;> rw [he]
  · rw [startIncrement_portF]
    cases w <;> cases hq : s.queueFor g
    · rw [hq, hf] at hr; cases hr
    · rfl
    · rfl
    · rw [hq, hf] at hr; cases hr
  · cases w <;> rfl

/-- A channel that is not in IDLE keeps its record at every judging. -/
theorem judge_chan_of_busy (s : State) (g h : Gate) (hb : (s.chan g).state ≠ .idle) : (s.judge h).chan g = s.chan g := by
  rcases judge_cases s h with ⟨_, hw, _, _, he⟩ | ⟨_, _, he⟩ <;> rw [he]
  · rw [startIncrement_chan, if_neg]
    rintro rfl
    exact hb (workTarget_idle hw)
  · rfl

/-! ### The beginning of a frame on port F -/

/-- Port F with the oldest frame of the chosen queue on the line. -/
def State.sentF (s : State) (w : FieldQueue) (streak : Nat) : State :=
  s.setPortF { s.portF.pop w with streak := streak, sending := (s.portF.frames w).head? }

theorem beginF_eq {s : State} {w : FieldQueue} {n : Nat} (hc : s.portF.choice = some (w, n)) (hd : s.dueF = true) (claim : Claim) :
    s.beginF claim = forEach (s.portF.waiting w).settled (fun g s => s.judge g) ((s.sentF w n).claimRoom w claim) := by
  have hw : ∀ u : State, u.portF.waitUrgent = s.portF.waitUrgent → u.portF.waitRoutine = s.portF.waitRoutine →
      u.portF.waiting w = s.portF.waiting w := by
    intro u h1 h2
    cases w
    · exact h1
    · exact h2
  have hsent : (s.sentF w n).portF.waitUrgent = s.portF.waitUrgent ∧ (s.sentF w n).portF.waitRoutine = s.portF.waitRoutine := by
    cases w <;> exact ⟨rfl, rfl⟩
  have hclaim : ((s.sentF w n).claimRoom w claim).portF.waitUrgent = s.portF.waitUrgent
      ∧ ((s.sentF w n).claimRoom w claim).portF.waitRoutine = s.portF.waitRoutine := by
    unfold State.claimRoom State.passToField
    split
    · split
      · split <;> exact hsent
      · exact hsent
    · exact hsent
  unfold State.beginF
  rw [hc]
  simp only
  rw [if_pos hd]
  show forEach (((s.sentF w n).claimRoom w claim).portF.waiting w).settled _ ((s.sentF w n).claimRoom w claim) = _
  rw [hw _ hclaim.1 hclaim.2]

theorem beginF_of_not_due {s : State} (h : s.dueF = false) (claim : Claim) : s.beginF claim = s := by
  unfold State.beginF
  split
  · rw [if_neg (by rw [h]; nofun)]
  · rfl

theorem dueF_iff (s : State) : s.dueF = true ↔ s.fieldReady = true ∧ s.portF.sending = none ∧ s.portF.choice.isSome = true := by
  unfold State.dueF
  rw [Bool.and_eq_true, Bool.and_eq_true, Option.isNone_iff_eq_none, and_assoc]

theorem choice_none_iff (p : PortF) : p.choice = none ↔ p.urgent = [] ∧ p.routine = [] := by
  unfold PortF.choice
  split
  · next hu hr => simp [hu, hr]
  · next hu hr => simp [hu, hr]
  · next hu hr => split <;> simp [hu, hr]
  · next hu hr => simp [hu, hr]

theorem choice_urgent {p : PortF} {f : LineFrame} {rest : List LineFrame} (hu : p.urgent = f :: rest) (hs : p.streak < 8) :
    p.choice = some (.urgent, p.streak + 1) := by
  unfold PortF.choice
  rw [hu]
  split
  · next hn _ => cases hn
  · exact congrArg (fun n => some (FieldQueue.urgent, n)) (min_eq_left hs)
  · exact if_pos hs
  · next hn _ => cases hn

theorem choice_urgent_alone {p : PortF} {f : LineFrame} {rest : List LineFrame} (hu : p.urgent = f :: rest) (hr : p.routine = []) :
    p.choice = some (.urgent, min (p.streak + 1) 8) := by
  unfold PortF.choice
  rw [hu, hr]
  rfl

theorem choice_routine {p : PortF} {f : LineFrame} {rest : List LineFrame} (hu : p.urgent = []) (hr : p.routine = f :: rest) :
    p.choice = some (.routine, 0) := by
  unfold PortF.choice
  rw [hu, hr]

theorem choice_routine_behind {p : PortF} {f : LineFrame} {rest : List LineFrame} (hu : p.urgent ≠ []) (hr : p.routine = f :: rest)
    (hs : p.streak = 8) : p.choice = some (.routine, 0) := by
  unfold PortF.choice
  split
  · next hn _ => exact absurd hn hu
  · next hn => rw [hr] at hn; cases hn
  · exact if_neg (by rw [hs]; decide)
  · next hn _ => exact absurd hn hu

theorem finish_told (s : State) : s.finish.told = s.told := finish_sameBut s .told (by decide)

theorem claimRoom_urgent (s : State) (claim : Claim) : s.claimRoom .urgent claim = s := by cases claim <;> rfl

theorem claimRoom_channels (s : State) (w : FieldQueue) : s.claimRoom w .channels = s := by cases w <;> rfl

/-- What a claim leaves: at most ROUTINE, the counts of port F, and port D's counts. -/
theorem claimRoom_told (s : State) (w : FieldQueue) (claim : Claim) : (s.claimRoom w claim).told = s.told := by
  unfold State.claimRoom State.passToField
  split
  · split
    · split <;> rfl
    · rfl
  · rfl

theorem claimRoom_line (s : State) (w : FieldQueue) (claim : Claim) :
    (s.claimRoom w claim).portF.streak = s.portF.streak ∧ (s.claimRoom w claim).portF.sending = s.portF.sending := by
  unfold State.claimRoom State.passToField
  split
  · split
    · split <;> exact ⟨rfl, rfl⟩
    · exact ⟨rfl, rfl⟩
  · exact ⟨rfl, rfl⟩

/-- With no Responder told, a beginning on port F is its own effect, ended. -/
theorem exec_beginF {s : State} (ht : s.told = false) (claim : Claim) :
    exec (.portFTxBegin claim) s = .next (s.beginF claim).finish := by
  have hb : (s.beginF claim).told = false := by
    cases hd : s.dueF with
    | false => rw [beginF_of_not_due hd]; exact ht
    | true =>
      obtain ⟨_, _, hsome⟩ := (dueF_iff s).mp hd
      obtain ⟨⟨w, n⟩, hc⟩ := Option.isSome_iff_exists.mp hsome
      rw [beginF_eq hc hd]
      refine (forEach_keeps (π := State.told) (fun g u => calm_told.judge u g) _ _).trans ?_
      exact (claimRoom_told ..).trans ht
  show Host.Outcome.next (s.beginF claim).finish.hear = _
  rw [hear_of_untold ((finish_told _).trans hb)]

/-- The line of port F after a beginning: the frame chosen and its streak. -/
theorem beginF_line {s : State} {w : FieldQueue} {n : Nat} (hc : s.portF.choice = some (w, n)) (hd : s.dueF = true) (claim : Claim) :
    (s.beginF claim).finish.portF.sending = (s.portF.frames w).head? ∧ (s.beginF claim).finish.portF.streak = n := by
  have hj : ∀ t : State, (forEach (s.portF.waiting w).settled (fun g s => s.judge g) t).portF.sending = t.portF.sending
      ∧ (forEach (s.portF.waiting w).settled (fun g s => s.judge g) t).portF.streak = t.portF.streak := fun t => by
    have := forEach_keeps (π := fun s => (s.portF.streak, s.portF.sending, s.portF.counts))
      (fun g v => quiet_portF.judge v g) (s.portF.waiting w).settled t
    exact ⟨congrArg (fun x => x.2.1) this, congrArg (fun x => x.1) this⟩
  rw [finish_portF, beginF_eq hc hd]
  obtain ⟨h1, h2⟩ := hj ((s.sentF w n).claimRoom w claim)
  obtain ⟨h3, h4⟩ := claimRoom_line (s.sentF w n) w claim
  exact ⟨h1.trans h4, h2.trans h3⟩

/-- Settles O7: the table of the choice; a reset's streak; and what the pin leaves. -/
theorem portFChoosesByTheUrgentStreak : Obligations.PortFChoosesByTheUrgentStreak := by
  refine ⟨fun s claim f rest hr hs ht => ⟨_, exec_beginF ht claim, ?_, ?_, ?_, ?_⟩, fun s x => ?_, fun s p hs ha hargs hw => ?_,
    fun s hq => ?_⟩
  · intro hu hrt
    have hc := choice_urgent_alone hu hrt
    have := beginF_line hc ((dueF_iff s).mpr ⟨hr, hs, by rw [hc]; rfl⟩) claim
    rwa [show s.portF.frames .urgent = f :: rest from hu] at this
  · intro hu _ hst
    have hc := choice_urgent hu hst
    have := beginF_line hc ((dueF_iff s).mpr ⟨hr, hs, by rw [hc]; rfl⟩) claim
    rwa [show s.portF.frames .urgent = f :: rest from hu] at this
  · intro hu hrt hst
    have hc := choice_routine_behind hu hrt hst
    have := beginF_line hc ((dueF_iff s).mpr ⟨hr, hs, by rw [hc]; rfl⟩) claim
    rwa [show s.portF.frames .routine = f :: rest from hrt] at this
  · intro hu hrt
    have hc := choice_routine hu hrt
    have := beginF_line hc ((dueF_iff s).mpr ⟨hr, hs, by rw [hc]; rfl⟩) claim
    rwa [show s.portF.frames .routine = f :: rest from hrt] at this
  · obtain ⟨⟨t, ht, hl, _⟩, u, hu, hl', _⟩ := resetsLeaveTheResetValues x s
    exact ⟨⟨t, ht, by rw [hl.portF]; rfl⟩, u, hu, by rw [hl'.portF]; rfl⟩
  · obtain ⟨t, ht, hl, _⟩ := (restartResetsThePart s p hs ha).1 hargs hw
    exact ⟨t, ht, by rw [hl.portF]; rfl⟩
  · obtain ⟨ha, hd, _⟩ := pinsTransmittersAndRetainedWrite s hq
    exact ⟨⟨_, hd, rfl⟩, _, ha, rfl⟩

end Sys2Proof.Machine
end

section
/-! One frame begins on port F, and the place it frees goes to the claim or to the longest waiting channel (R144, R145). -/

namespace Sys2Proof.Machine

theorem dueF_iff_queues (s : State) : s.dueF = true ↔
    s.fieldReady = true ∧ s.portF.sending = none ∧ ¬ (s.portF.urgent = [] ∧ s.portF.routine = []) := by
  rw [dueF_iff, ← choice_none_iff]
  cases s.portF.choice <;> simp

/-- A settled state stays settled when the channels, the plan and the report stay and no waiter is fresh. -/
theorem finish_of_line {s : State} (h : s.settled) (u : State) (hu : u.portF.waitUrgent = s.portF.waitUrgent)
    (hr : u.portF.waitRoutine = s.portF.waitRoutine) (ht : u.report = s.report) (hc : u.chans = s.chans)
    (ha : u.active = s.active) : u.finish = u := h.of_same hu hr (by rw [ht]) hc ha

theorem settle_settle (w : WaitList) : w.settle.settle = w.settle := by
  unfold WaitList.settle
  simp

/-- Port F with its wait lists settled. -/
def PortF.settleWaits (p : PortF) : PortF := { p with waitUrgent := p.waitUrgent.settle, waitRoutine := p.waitRoutine.settle }

/-- The end of an event, behind the settling of the wait lists. -/
def State.followTrace (s : State) : State :=
  match s.report.sampler.tagged with
  | none => s
  | some t =>
    match (s.chan t.gate).state with
    | .unbound => s.endTrace .unbound
    | .wait => s.endTrace .faulted
    | .localHand => s.endTrace .faulted
    | .fault _ => s.endTrace .faulted
    | .hold _ => s.endTrace .held
    | .idle => if s.hasWork t.gate then s else s.endTrace .reached
    | .step _ _ => s
    | .dwell _ => s

theorem finish_eq (s : State) : s.finish = (s.setPortF s.portF.settleWaits).followTrace := rfl

/-- Where the trace being followed goes on, the end of an event settles the wait lists alone. -/
theorem finish_of_traceGoesOn {s : State} (h : ∀ t, s.report.sampler.tagged = some t → s.traceGoesOn t.gate = true) :
    s.finish = s.setPortF s.portF.settleWaits := by
  have hset : (s.setPortF s.portF.settleWaits).settled :=
    (settled_iff _).mpr ⟨rfl, rfl, h⟩
  refine Eq.trans ?_ hset
  have hline : (s.setPortF s.portF.settleWaits).setPortF (s.setPortF s.portF.settleWaits).portF.settleWaits
      = s.setPortF s.portF.settleWaits := by
    simp only [setPortF_portF, PortF.settleWaits, settle_settle]
    rfl
  exact (congrArg State.followTrace hline).symm

/-- With no channel waiting for the chosen queue a beginning is the frame on the line and the claim's taking. -/
theorem beginF_of_none_waiting {s : State} {w : FieldQueue} {n : Nat} (hc : s.portF.choice = some (w, n)) (hd : s.dueF = true)
    {claim : Claim} (hw : (s.portF.waiting w).settled = []) : s.beginF claim = (s.sentF w n).claimRoom w claim := by
  rw [beginF_eq hc hd, hw]
  rfl

/-- Judging channels of which none can place a frame writes the wait lists alone. -/
theorem judgeAll_waits {gs : List Gate} {s : State} (h : ∀ g ∈ gs, s.portF.room (s.queueFor g) = false) :
    ∃ u r, forEach gs (fun g s => s.judge g) s = s.setPortF { s.portF with waitUrgent := u, waitRoutine := r } := by
  have hroom : ∀ (u r : WaitList) g, (s.setPortF { s.portF with waitUrgent := u, waitRoutine := r }).portF.room (s.queueFor g)
      = s.portF.room (s.queueFor g) := fun u r g => by cases s.queueFor g <;> rfl
  suffices hgen : ∀ gs : List Gate, (∀ g ∈ gs, s.portF.room (s.queueFor g) = false) → ∀ u r, ∃ u' r',
      forEach gs (fun g s => s.judge g) (s.setPortF { s.portF with waitUrgent := u, waitRoutine := r })
        = s.setPortF { s.portF with waitUrgent := u', waitRoutine := r' } from
    hgen gs h s.portF.waitUrgent s.portF.waitRoutine
  intro gs
  induction gs with
  | nil => exact fun _ u r => ⟨u, r, rfl⟩
  | cons g gs ih =>
    intro h u r
    have hstep : ∃ u' r', (s.setPortF { s.portF with waitUrgent := u, waitRoutine := r }).judge g
        = s.setPortF { s.portF with waitUrgent := u', waitRoutine := r' } := by
      rcases judge_cases (s.setPortF { s.portF with waitUrgent := u, waitRoutine := r }) g with ⟨_, _, _, hr, _⟩ | ⟨u', r', he⟩
      · have hfull := (hroom u r g).symm.trans hr
        rw [h g (List.mem_cons_self ..)] at hfull
        cases hfull
      · exact ⟨u', r', he⟩
    obtain ⟨u', r', he⟩ := hstep
    obtain ⟨u2, r2, h2⟩ := ih (fun x hx => h x (List.mem_cons_of_mem _ hx)) u' r'
    refine ⟨u2, r2, ?_⟩
    show forEach gs _ ((s.setPortF _).judge g) = _
    rw [he, h2]

theorem judgeAll_sameBut (gs : List Gate) (s : State) :
    SameBut [.chans, .portF, .report] s (forEach gs (fun g s => s.judge g) s) := by
  induction gs generalizing s with
  | nil => exact SameBut.refl _ _
  | cons g gs ih => exact (judge_sameBut s g).trans (ih (s.judge g))

/-- Judging keeps a channel that is not in IDLE and the frames of a full queue. -/
theorem judgeAll_keeps {gs : List Gate} {s : State} {g : Gate} {w : FieldQueue} (hb : (s.chan g).state ≠ .idle)
    (hf : s.portF.room w = false) :
    (forEach gs (fun g s => s.judge g) s).chan g = s.chan g
      ∧ (forEach gs (fun g s => s.judge g) s).portF.frames w = s.portF.frames w := by
  have hroom : ∀ p q : PortF, p.frames w = q.frames w → p.room w = q.room w := by
    intro p q h
    cases w
    · exact congrArg (fun l : List LineFrame => decide (l.length < Config.urgentCap)) h
    · exact congrArg (fun l : List LineFrame => decide (l.length < Config.routineCap)) h
  refine forEach_preserves (P := fun t => t.chan g = s.chan g ∧ t.portF.frames w = s.portF.frames w)
    (fun h t ht => ?_) gs s ⟨rfl, rfl⟩
  refine ⟨(judge_chan_of_busy t g h (by rw [ht.1]; exact hb)).trans ht.1, (judge_full t h w ?_).trans ht.2⟩
  rw [hroom _ _ ht.2, hf]

/-- The frame on the line of port F stays there while channels judge. -/
theorem judgeAll_sending (gs : List Gate) (s : State) :
    (forEach gs (fun g s => s.judge g) s).portF.sending = s.portF.sending :=
  congrArg (fun x => x.2.1) (forEach_keeps (π := fun s => (s.portF.streak, s.portF.sending, s.portF.counts))
    (fun g v => quiet_portF.judge v g) gs s)

/-- The place freed in a full queue goes to the longest waiting channel, when it has work and the turn. -/
theorem beginF_to_waiter {s : State} {w : FieldQueue} {n : Nat} {g : Gate} {others : List Gate} {target : Nat} {claim : Claim}
    (hc : s.portF.choice = some (w, n)) (hd : s.dueF = true) (hwait : (s.portF.waiting w).settled = g :: others)
    (hclaim : (s.sentF w n).claimRoom w claim = s.sentF w n) (hroom : (s.sentF w n).portF.room w = true)
    (hfull : ∀ f : LineFrame, ((s.sentF w n).portF.push w f).room w = false) (hwork : s.workTarget g = some target)
    (hturn : s.mayStart g = true) (hq : s.queueFor g = w) :
    ((s.beginF claim).finish.chan g).state = .step target (s.gateEntry g).stepTimeout
      ∧ (s.beginF claim).finish.portF.frames w
          = (s.sentF w n).portF.frames w ++ [incrementFrame g target (((s.chan g).tag + 1) % 65536)]
      ∧ (s.beginF claim).finish.portF.sending = (s.portF.frames w).head?
      ∧ SameBut [.chans, .portF, .report] s (s.beginF claim).finish := by
  have hstart : (s.sentF w n).judge g = (s.sentF w n).startIncrement g target w := by
    have := judge_start (s := s.sentF w n) hwork hturn (by rw [show (s.sentF w n).queueFor g = w from hq]; exact hroom)
    rwa [show (s.sentF w n).queueFor g = w from hq] at this
  have hbegin : s.beginF claim = forEach others (fun g s => s.judge g) ((s.sentF w n).startIncrement g target w) := by
    rw [beginF_eq hc hd, hwait, hclaim, ← hstart]
    rfl
  have hport := startIncrement_portF (s.sentF w n) g target w
  have hchan := startIncrement_chan (s.sentF w n) g target w g
  rw [if_pos rfl] at hchan
  have hbusy : (((s.sentF w n).startIncrement g target w).chan g).state ≠ .idle := by rw [hchan]; nofun
  have hno : ((s.sentF w n).startIncrement g target w).portF.room w = false := by
    have := hfull (incrementFrame g target ((((s.sentF w n).chan g).tag + 1) % 65536))
    rw [hport]
    cases w <;> exact this
  obtain ⟨hkeepc, hkeepf⟩ := judgeAll_keeps (gs := others) hbusy hno
  have hfin : ∀ t : State, t.finish.portF.frames w = t.portF.frames w := fun t => by rw [finish_portF]; cases w <;> rfl
  refine ⟨?_, ?_, ?_, ?_⟩
  · have hc' : (s.beginF claim).finish.chan g = (s.beginF claim).chan g :=
      congrArg (fun c => Tab.get c g) (finish_chans _)
    rw [hc', hbegin, hkeepc, hchan]
    rfl
  · rw [hfin, hbegin, hkeepf, hport]
    cases w <;> rfl
  · rw [finish_portF, hbegin]
    show (forEach others _ _).portF.sending = _
    rw [judgeAll_sending, hport]
    cases w <;> rfl
  · rw [hbegin]
    have hsent : SameBut [.portF] s (s.sentF w n) := setPortF_sameBut _ _
    exact (((hsent.mono (by decide)).trans (startIncrement_sameBut _ _ _ _)).trans (judgeAll_sameBut _ _)).trans
      ((finish_sameBut _).mono (by decide))

/-- Settles O8: by the queue chosen, the claim, and who waits. -/
theorem portFBeginsOneFrame : Obligations.PortFBeginsOneFrame := by
  intro s hset ht
  have hexec := exec_beginF ht
  refine ⟨fun claim hd => ?_, dueF_iff_queues s, fun hr hs f rest => ⟨fun hu hst hw claim => ?_, fun hrt hu hw => ?_,
    fun hrt hu hlen hgs x hx => ?_⟩, fun hr hs hst f rest g others target claim hu hlen hw hwork hturn hq => ?_,
    fun hr hs hu f rest g others target hrt hlen hw hwork hturn hq => ?_⟩
  · rw [hexec, beginF_of_not_due hd]
    exact congrArg _ hset
  · have hc := choice_urgent hu hst
    have hd := (dueF_iff s).mpr ⟨hr, hs, by rw [hc]; rfl⟩
    rw [hexec, beginF_of_none_waiting hc hd hw, claimRoom_urgent]
    have he : s.sentF .urgent (s.portF.streak + 1)
        = s.setPortF { s.portF with urgent := rest, streak := s.portF.streak + 1, sending := some f } := by
      simp [State.sentF, PortF.pop, PortF.frames, hu]
    rw [he]
    exact congrArg _ (finish_of_line hset _ rfl rfl rfl rfl rfl)
  · have hc := choice_routine hu hrt
    have hd := (dueF_iff s).mpr ⟨hr, hs, by rw [hc]; rfl⟩
    rw [hexec, beginF_of_none_waiting hc hd hw, claimRoom_channels]
    have he : s.sentF .routine 0 = s.setPortF { s.portF with routine := rest, streak := 0, sending := some f } := by
      simp [State.sentF, PortF.pop, PortF.frames, hrt]
    rw [he]
    exact congrArg _ (finish_of_line hset _ rfl rfl rfl rfl rfl)
  · have hc := choice_routine hu hrt
    have hd := (dueF_iff s).mpr ⟨hr, hs, by rw [hc]; rfl⟩
    have hrest : rest.length = 63 := by rw [hrt] at hlen; exact Nat.succ.inj hlen
    have hclaim : (s.sentF .routine 0).claimRoom .routine (.frame x)
        = ((s.sentF .routine 0).countD PortCounts.addReceived).setPortF
            { s.portF with routine := rest ++ [x], streak := 0, sending := some f } := by
      have hroom : ((s.sentF .routine 0).countD PortCounts.addReceived).portF.routine.length < 64 := by
        show (s.portF.routine.drop 1).length < 64
        rw [hrt]
        show rest.length < 64
        omega
      unfold State.claimRoom
      simp only
      rw [if_pos (show (s.sentF .routine 0).goesToField x = true from hx), passToField_room hroom]
      simp [State.sentF, PortF.pop, PortF.frames, hrt, State.countD, State.setPortF, State.setPortD]
    obtain ⟨u, r, he⟩ := judgeAll_waits (gs := s.portF.waitRoutine.settled)
      (s := (s.sentF .routine 0).claimRoom .routine (.frame x)) (fun g hg => by
        rw [hclaim]
        have hq : s.queueFor g = .routine := hgs g hg
        show PortF.room _ (s.queueFor g) = false
        rw [hq]
        refine decide_eq_false ?_
        show ¬ (rest ++ [x]).length < 64
        rw [List.length_append, hrest, List.length_singleton]
        decide)
    have hbegin : s.beginF (.frame x) = ((s.countD PortCounts.addReceived).setPortF
        { s.portF with routine := rest ++ [x], streak := 0, sending := some f, waitUrgent := u, waitRoutine := r }) := by
      rw [beginF_eq hc hd]
      refine he.trans ?_
      rw [hclaim]
      rfl
    have hport := finish_portF (s.beginF (.frame x))
    have hD := finish_portD (s.beginF (.frame x))
    refine ⟨_, hexec _, ?_, ?_, ?_, ?_⟩
    · rw [hport, hbegin]; rfl
    · rw [hport, hbegin]; rfl
    · rw [hD, hbegin]; rfl
    · obtain ⟨_, _, hgo⟩ := (settled_iff s).mp hset
      rw [finish_of_traceGoesOn (s := s.beginF (.frame x)) (by rw [hbegin]; exact hgo), hbegin]
      exact (((countD_sameBut _ _).mono (by decide)).trans ((setPortF_sameBut _ _).mono (by decide))).trans
        ((setPortF_sameBut _ _).mono (by decide))
  · have hc := choice_urgent hu hst
    have hd := (dueF_iff s).mpr ⟨hr, hs, by rw [hc]; rfl⟩
    have hrest : rest.length = 15 := by rw [hu] at hlen; exact Nat.succ.inj hlen
    have hframes : (s.sentF .urgent (s.portF.streak + 1)).portF.urgent = rest := by
      show s.portF.urgent.drop 1 = rest
      rw [hu]
      rfl
    obtain ⟨h1, h2, h3, h4⟩ := beginF_to_waiter hc hd hw (claimRoom_urgent _ claim)
      (decide_eq_true (by rw [hframes, hrest]; decide))
      (fun x => decide_eq_false (by
        show ¬ ((s.sentF .urgent (s.portF.streak + 1)).portF.urgent ++ [x]).length < 16
        rw [hframes, List.length_append, hrest, List.length_singleton]
        decide)) hwork hturn hq
    refine ⟨_, hexec claim, h1, h2.trans ?_, h3.trans ?_, h4⟩
    · exact congrArg (· ++ _) hframes
    · show s.portF.urgent.head? = some f
      rw [hu]
      rfl
  · have hc := choice_routine hu hrt
    have hd := (dueF_iff s).mpr ⟨hr, hs, by rw [hc]; rfl⟩
    have hrest : rest.length = 63 := by rw [hrt] at hlen; exact Nat.succ.inj hlen
    have hframes : (s.sentF .routine 0).portF.routine = rest := by
      show s.portF.routine.drop 1 = rest
      rw [hrt]
      rfl
    obtain ⟨h1, h2, h3, h4⟩ := beginF_to_waiter hc hd hw (claimRoom_channels _ _)
      (decide_eq_true (by rw [hframes, hrest]; decide))
      (fun x => decide_eq_false (by
        show ¬ ((s.sentF .routine 0).portF.routine ++ [x]).length < 64
        rw [hframes, List.length_append, hrest, List.length_singleton]
        decide)) hwork hturn hq
    refine ⟨_, hexec .channels, h1, h2.trans ?_, h3.trans ?_, h4⟩
    · exact congrArg (· ++ _) hframes
    · show s.portF.routine.head? = some f
      rw [hrt]
      rfl

end Sys2Proof.Machine
end

section
/-! Requests on the Plan Store that write no block: READ_ENTRY, load runs and PLAN_CONTROL (R155 to R160, R162). -/

namespace Sys2Proof.Machine

/-- A request its rule grants is answered with what the rule leaves, when that ends settled. -/
theorem row_granted {s t : State} {p : List Byte} {r : Request} {row : Request → Bool} {status : Status} {results : List Byte}
    (hs : s.ready) (ha : s.asks p r) (hrow : row r = true) (hc : r ≠ .setClock)
    (hh : s.reserve.handle r (reqArgs p) = { state := t.reserve, status := status, results := results })
    (hr : r ≠ .restart ∨ status ≠ .done) (ht : t.settled) : s.row row = .next (t.answered p status results) :=
  row_of_asks hs ha hrow hc ((respond_of_handle ha hh hr).trans (answered_settled ht p status results))

theorem setStore_settled {s : State} (h : s.settled) {r : PlanStore} (hr : r.active = s.store.active) : (s.setStore r).settled :=
  h.of_same rfl rfl rfl rfl hr

/-! ### READ_ENTRY (R155, R156) -/

/-- What READ_ENTRY adds behind a place: the run and the write in flight behind the header, the armed mark behind an ACTIVE
schedule entry. -/
def State.entryExtra (s : State) (bank : Nat) : PlanPlace → List Byte
  | .header => [byteOf s.store.run.isSome.toNat] ++ beBytes 2 (s.store.run.getD 0) ++ [byteOf s.store.writing.toNat]
  | .sched n => if bank = 0 then [byteOf (s.armed.get n).toNat] else []
  | _ => []

theorem handleReadEntry_place {s : State} {bank table index part : Byte} {place : PlanPlace}
    (hp : planPlace table.toNat index.toNat part.toNat = some place) (hb : bank.toNat ≤ 1) :
    s.handleReadEntry [bank, table, index, part] = s.grant ([table, index, part]
      ++ (if bank.toNat = 0 then s.active else s.store.planPending).read place ++ s.entryExtra bank.toNat place) := by
  unfold State.handleReadEntry
  simp only [List.map_cons, List.map_nil]
  rw [hp]
  simp only
  rw [if_pos hb, byteOf_toNat, byteOf_toNat, byteOf_toNat]
  cases place <;> rfl

theorem handleReadEntry_none {s : State} {bank table index part : Byte}
    (h : planPlace table.toNat index.toNat part.toNat = none ∨ 1 < bank.toNat) :
    s.handleReadEntry [bank, table, index, part] = s.deny .badArgument := by
  unfold State.handleReadEntry
  simp only [List.map_cons, List.map_nil]
  split
  · rfl
  · next place hp =>
    rcases h with h | h
    · rw [h] at hp; cases hp
    · exact if_neg (Nat.not_le.mpr h)

/-- Settles O44: by the place and the bank. -/
theorem readEntryReturnsThePlace : Obligations.ReadEntryReturnsThePlace := by
  intro s p bank table index part hs ha hargs
  have hanswer : ∀ {status results}, s.reserve.handleReadEntry [bank, table, index, part]
        = { state := s.reserve, status := status, results := results } →
      exec .readEntry s = .next (s.answered p status results) := fun h => by
    refine row_refused hs ha rfl nofun ?_ (.inl nofun)
    show s.reserve.handleReadEntry (reqArgs p) = _
    rw [hargs]
    exact h
  refine ⟨fun place hp => ⟨fun hb => ?_, fun hb => ?_⟩, fun h => hanswer (handleReadEntry_none h)⟩
  · rw [hanswer (handleReadEntry_place hp (by omega)), hb]
    cases place <;> rfl
  · rw [hanswer (handleReadEntry_place hp (by omega)), hb]
    cases place <;> rfl

/-! ### Load runs (R157, R158) -/

/-- Settles O45: by the argument first and the open run second. -/
theorem loadRunWritesPending : Obligations.LoadRunWritesPending := by
  refine ⟨fun s p hs ha hlen => ⟨fun hlow hhigh => ⟨fun hrun => ?_, fun hrun => ?_⟩, fun hbad => ?_⟩,
    fun s p table index part entry hs ha hargs => ?_⟩
  · refine row_granted hs ha rfl nofun ?_ (.inl nofun) (setStore_settled hs.1 rfl)
    show s.reserve.handleOpenLoad (reqArgs p) = _
    unfold State.handleOpenLoad
    rw [if_pos ⟨hlen, hlow, hhigh⟩, show s.reserve.store.run = none from hrun]
    rfl
  · obtain ⟨n, hn⟩ := Option.ne_none_iff_exists'.mp hrun
    refine row_refused hs ha rfl nofun ?_ (.inl nofun)
    show s.reserve.handleOpenLoad (reqArgs p) = _
    unfold State.handleOpenLoad
    rw [if_pos ⟨hlen, hlow, hhigh⟩, show s.reserve.store.run = some n from hn]
    rfl
  · refine row_refused hs ha rfl nofun ?_ (.inl nofun)
    show s.reserve.handleOpenLoad (reqArgs p) = _
    unfold State.handleOpenLoad
    rw [if_neg (by omega)]
    rfl
  · have hplace : planPlace (byteAt (reqArgs p) 0) (byteAt (reqArgs p) 1) (byteAt (reqArgs p) 2)
        = planPlace table.toNat index.toNat part.toNat := by rw [hargs]; rfl
    have hlen : (reqArgs p).length = 3 + entry.length := by rw [hargs, List.length_append]; rfl
    have hdrop : (reqArgs p).drop 3 = entry := by rw [hargs]; rfl
    have hanswer : ∀ {status results}, s.reserve.handleWriteEntry (reqArgs p)
          = { state := s.reserve, status := status, results := results } →
        exec .writeEntry s = .next (s.answered p status results) := fun h => row_refused hs ha rfl nofun h (.inl nofun)
    refine ⟨fun hp => hanswer ?_, fun place hp => ⟨fun hn => hanswer ?_, fun he => ⟨fun hrun => hanswer ?_,
      fun n hrun hpos => ?_⟩⟩⟩
    · unfold State.handleWriteEntry
      rw [hplace, hp]
      rfl
    · unfold State.handleWriteEntry
      rw [hplace, hp]
      simp only
      rw [if_neg (by omega)]
      rfl
    · unfold State.handleWriteEntry
      rw [hplace, hp]
      simp only
      rw [if_pos (by omega), show s.reserve.store.run = none from hrun]
      rfl
    · refine row_granted hs ha rfl nofun ?_ (.inl nofun) (setStore_settled hs.1 rfl)
      have hafter : runAfter n = if n = 1 then none else some (n - 1) := by
        unfold runAfter
        by_cases h1 : n = 1
        · rw [if_pos h1, if_pos (by omega)]
        · rw [if_neg h1, if_neg (by omega)]
      show s.reserve.handleWriteEntry (reqArgs p) = _
      unfold State.handleWriteEntry
      rw [hplace, hp]
      simp only
      rw [if_pos (by omega), show s.reserve.store.run = some n from hrun, hdrop]
      simp only
      rw [hafter]
      rfl

/-! ### PLAN_CONTROL (R159, R160, R162) -/

theorem handleCheck_of_fault {s : State} {f : Nat × Nat × Nat} (h : s.store.run = none)
    (hf : s.store.planPending.fault = some f) : s.handleCheck = s.invalidPlan f := by
  unfold State.handleCheck
  rw [h, hf]

theorem handleCheck_of_valid {s : State} (h : s.store.run = none) (hf : s.store.planPending.fault = none) :
    s.handleCheck = s.grant (beBytes 2 s.store.planPending.number) := by
  unfold State.handleCheck
  rw [h, hf]

/-- Settles O47: by the action, the run and the checks in their order. -/
theorem planControlActsOnPending : Obligations.PlanControlActsOnPending := by
  intro s p hs
  have hrefused : ∀ {r : Request} {row : Request → Bool} {status results}, s.asks p r → row r = true → r ≠ .setClock →
      r ≠ .restart → s.reserve.handle r (reqArgs p) = { state := s.reserve, status := status, results := results } →
      s.row row = .next (s.answered p status results) := fun ha hrow hc hr hh => row_refused hs ha hrow hc hh (.inl hr)
  have hopen : s.store.run ≠ none → ∃ n, s.reserve.store.run = some n := Option.ne_none_iff_exists'.mp
  refine ⟨fun ha => ?_, fun ha => ⟨fun hrun => ?_, fun hrun => hrefused ha rfl nofun nofun ?_⟩, fun ha c hc => ?_,
    fun ha => ⟨fun hrun => hrefused ha rfl nofun nofun ?_, fun hrun hf => hrefused ha rfl nofun nofun ?_,
      fun table index number hrun hf => hrefused ha rfl nofun nofun ?_⟩,
    fun ha => ⟨fun hrun => hrefused ha rfl nofun nofun ?_, fun hrun hw => hrefused ha rfl nofun nofun ?_,
      fun table index number hrun hw hf => hrefused ha rfl nofun nofun ?_,
      fun g hrun hw hf hg => hrefused ha rfl nofun nofun ?_⟩⟩
  · exact row_granted hs ha rfl nofun rfl (.inl nofun) (setStore_settled hs.1 rfl)
  · refine row_granted hs ha rfl nofun ?_ (.inl nofun) (setStore_settled hs.1 rfl)
    show s.reserve.handleCopy = _
    unfold State.handleCopy
    rw [show s.reserve.store.run = none from hrun]
    rfl
  · obtain ⟨n, hn⟩ := hopen hrun
    show s.reserve.handleCopy = _
    unfold State.handleCopy
    rw [hn]
    rfl
  · have hrow : ∀ row : Request → Bool, row .abandonCopy = true → s.row row
        = .next ((s.setStore { s.store with run := none, planPending := s.store.active }).answered p .done
            (beBytes 2 (s.store.run.getD 0))) := fun row h =>
      row_granted hs ha h nofun rfl (.inl nofun) (setStore_settled hs.1 rfl)
    rcases hc with rfl | rfl
    · exact hrow _ rfl
    · exact hrow _ rfl
  · obtain ⟨n, hn⟩ := hopen hrun
    show s.reserve.handleCheck = _
    unfold State.handleCheck
    rw [hn]
    rfl
  · exact handleCheck_of_valid (s := s.reserve) hrun hf
  · exact handleCheck_of_fault (s := s.reserve) hrun hf
  · obtain ⟨n, hn⟩ := hopen hrun
    show s.reserve.handleCommit = _
    unfold State.handleCommit
    rw [hn]
    rfl
  · show s.reserve.handleCommit = _
    unfold State.handleCommit
    rw [show s.reserve.store.run = none from hrun, show s.reserve.store.writing = true from hw]
    rfl
  · show s.reserve.handleCommit = _
    unfold State.handleCommit
    rw [show s.reserve.store.run = none from hrun, show s.reserve.store.writing = false from hw,
      show s.reserve.store.planPending.fault = _ from hf]
    rfl
  · show s.reserve.handleCommit = _
    unfold State.handleCommit
    rw [show s.reserve.store.run = none from hrun, show s.reserve.store.writing = false from hw,
      show s.reserve.store.planPending.fault = none from hf, show s.reserve.commitBlocker = some g from hg]
    rfl

end Sys2Proof.Machine
end

section
/-! Requests that report: reaches, marks, counts, snapshots and the trace sampler (R59, R71, R166 to R171). -/

namespace Sys2Proof.Machine

/-! ### What any answer leaves -/

theorem placeReply_sameBut (s : State) (p : List Byte) (status : Status) (results : List Byte) :
    SameBut [.portD] s (s.placeReply p status results) := by
  intro x hx
  cases x <;> first | exact ⟨rfl, rfl⟩ | rfl | simp at hx

theorem reserve_sameBut (s : State) : SameBut [.inbox, .told, .portD] s s.reserve := by
  intro x hx
  cases x <;> first | exact ⟨rfl, rfl⟩ | rfl | simp at hx

/-- What judging a request does not touch outside the blocks. -/
theorem judgeRequest_outside (s : State) (p : List Byte) : (s.judgeRequest p).state.outside = s.outside := by
  unfold State.judgeRequest
  split
  · exact still_outside.handle s _ _
  · rfl

/-- A request that is answered and resets nothing. -/
theorem respond_eq {s : State} {p : List Byte} (h : readRequest p ≠ .restart) :
    s.respond p = ((s.reserve.judgeRequest p).state.placeReply p (s.reserve.judgeRequest p).status
      (s.reserve.judgeRequest p).results).finish := by
  unfold State.respond State.afterReply
  simp only
  rw [if_neg fun hr => h hr.1]

/-- The reply of a request that resets nothing is the newest own frame, and the inbox has lost the request. -/
theorem respond_replied {s : State} {p : List Byte} (h : readRequest p ≠ .restart) :
    Replied s (s.respond p) p (s.reserve.judgeRequest p).status (s.reserve.judgeRequest p).results := by
  rw [respond_eq h]
  refine ⟨?_, ?_⟩
  · rw [quiet_inbox.finish]
    exact congrArg (fun x => x.2.2.2.2.2.1) (judgeRequest_outside s.reserve p)
  · rw [finish_portD]
    exact List.getLast?_append_of_ne_nil _ (by nofun)

/-- A request of a row other than SET_CLOCK and RESTART, by what its rule answers. -/
theorem row_of_answer {s u : State} {p : List Byte} {r : Request} {row : Request → Bool} {status : Status}
    {results : List Byte} (hs : s.ready) (ha : s.asks p r) (hrow : row r = true) (hc : r ≠ .setClock) (hr : r ≠ .restart)
    (hh : s.reserve.handle r (reqArgs p) = { state := u, status := status, results := results }) :
    s.row row = .next (u.placeReply p status results).finish
      ∧ Replied s (u.placeReply p status results).finish p status results := by
  have hread : readRequest p ≠ .restart := by rw [ha.2.2.2]; exact hr
  have hj := (judgeRequest_asks ha).trans hh
  have he := respond_eq (s := s) hread
  have hrep := respond_replied (s := s) hread
  rw [hj] at he hrep
  exact ⟨row_of_asks hs ha hrow hc he, he ▸ hrep⟩

theorem placeReply_settled {s : State} (h : s.settled) (p : List Byte) (status : Status) (results : List Byte) :
    (s.placeReply p status results).settled :=
  h.of_same rfl rfl rfl rfl rfl

theorem reserve_settled {s : State} (h : s.settled) : s.reserve.settled := h.of_same rfl rfl rfl rfl rfl

/-! ### RESEED_REACH, READ_MARKS and READ_COUNTS (R71, R59, R171) -/

/-- A reach reseeded: its line is one parcel, and nothing else of the reaches changes. -/
theorem reseed_reach_eq (s : State) (k j : ReachId) (flow : Nat) (cause : ReseedCause) :
    (s.reseed k flow cause).reach j
      = if j = k then { s.reach k with line := oneParcel flow (s.reachEntry k).tau, unseeded := false } else s.reach j := by
  have h : (s.reseed k flow cause).reach j
      = (s.setReach k { s.reach k with line := oneParcel flow (s.reachEntry k).tau, unseeded := false }).reach j :=
    congrArg (fun r => Tab.get r j) (quiet_reaches.notify _ _ _ _ _)
  exact h.trans (reach_setReach ..)

theorem reseed_sameBut (s : State) (k : ReachId) (flow : Nat) (cause : ReseedCause) :
    SameBut [.reaches, .portD, .report] s (s.reseed k flow cause) := by
  refine SameBut.trans (t := s.setReach k { s.reach k with line := oneParcel flow (s.reachEntry k).tau, unseeded := false })
    (fun x hx => ?_) ((notify_sameBut _ _ _ _ _).mono (by decide))
  cases x <;> first | exact ⟨rfl, rfl⟩ | rfl | simp at hx

theorem reseed_settled {s : State} (h : s.settled) (k : ReachId) (flow : Nat) (cause : ReseedCause) :
    (s.reseed k flow cause).settled := by
  refine notify_settled ?_ _ _ _ _
  exact h.of_same rfl rfl rfl rfl rfl

theorem oneByte_singleton (b : Byte) : oneByte [b] = some b.toNat := rfl

theorem toFin?_none_of_le {n k : Nat} (h : n ≤ k) : toFin? n k = none := dif_neg (Nat.not_lt.mpr h)

/-- Settles O52: by the request and the number it carries. -/
theorem reachMarksAndCountsRequests : Obligations.ReachMarksAndCountsRequests := by
  intro s p b hs hargs
  have hrefused : ∀ {r : Request} {row : Request → Bool} {status results}, s.asks p r → row r = true → r ≠ .setClock →
      r ≠ .restart → s.reserve.handle r (reqArgs p) = { state := s.reserve, status := status, results := results } →
      s.row row = .next (s.answered p status results) := fun ha hrow hc hr hh => row_refused hs ha hrow hc hh (.inl hr)
  refine ⟨fun ha => ⟨fun hb => hrefused ha rfl nofun nofun ?_, fun k hk => ⟨fun hp => hrefused ha rfl nofun nofun ?_,
      fun hp => ?_⟩⟩,
    fun ha => ⟨fun hb => hrefused ha rfl nofun nofun ?_, fun k hk => ⟨fun hp => hrefused ha rfl nofun nofun ?_,
      fun hp => ?_⟩⟩,
    fun ha => ⟨fun hb => hrefused ha rfl nofun nofun ?_, fun hb => hrefused ha rfl nofun nofun ?_,
      fun hb => hrefused ha rfl nofun nofun ?_⟩⟩
  · show s.reserve.handleReseedReach (reqArgs p) = _
    unfold State.handleReseedReach
    rw [hargs, oneByte_singleton, Option.bind_some, toFin?_none_of_le (by omega)]
    rfl
  · show s.reserve.handleReseedReach (reqArgs p) = _
    unfold State.handleReseedReach
    rw [hargs, oneByte_singleton, Option.bind_some, hk, toFin?_val]
    exact if_neg (by rw [show s.reserve.reachEntry k = s.reachEntry k from rfl, hp]; decide)
  · have hh : s.reserve.handle .reseedReach (reqArgs p)
        = { state := s.reserve.reseed k (s.station (upperOf k)).qOut .request, status := .done, results := [] } := by
      show s.reserve.handleReseedReach (reqArgs p) = _
      unfold State.handleReseedReach
      rw [hargs, oneByte_singleton, Option.bind_some, hk, toFin?_val]
      exact if_pos hp
    obtain ⟨hrow, hrep⟩ := row_of_answer (row := fun r => r == .reseedReach) hs ha rfl nofun nofun hh
    have hset := placeReply_settled (reseed_settled (reserve_settled hs.1) k (s.station (upperOf k)).qOut .request) p .done []
    rw [show State.finish _ = _ from hset] at hrow hrep
    refine ⟨_, hrow, hrep, (reseed_reach_eq s.reserve k k _ _).trans (if_pos rfl),
      fun j hj => (reseed_reach_eq s.reserve k j _ _).trans (if_neg hj), ?_⟩
    exact (((reserve_sameBut s).mono (by decide)).trans ((reseed_sameBut _ _ _ _).mono (by decide))).trans
      ((placeReply_sameBut _ _ _ _).mono (by decide))
  · show s.reserve.handleReadMarks (reqArgs p) = _
    unfold State.handleReadMarks
    rw [hargs, oneByte_singleton, Option.bind_some, toFin?_none_of_le (by omega)]
    rfl
  · show s.reserve.handleReadMarks (reqArgs p) = _
    unfold State.handleReadMarks
    rw [hargs, oneByte_singleton, Option.bind_some, hk, toFin?_val]
    exact if_neg (by rw [show s.reserve.stationEntry k = s.stationEntry k from rfl, hp]; decide)
  · refine row_granted hs ha rfl nofun ?_ (.inl nofun) (hs.1.of_same rfl rfl rfl rfl rfl)
    show s.reserve.handleReadMarks (reqArgs p) = _
    unfold State.handleReadMarks
    rw [hargs, oneByte_singleton, Option.bind_some, hk, toFin?_val]
    exact if_pos hp
  · show s.reserve.handleReadCounts (reqArgs p) = _
    unfold State.handleReadCounts
    rw [hargs, oneByte_singleton, hb]
    rfl
  · show s.reserve.handleReadCounts (reqArgs p) = _
    unfold State.handleReadCounts
    rw [hargs, oneByte_singleton, hb]
    rfl
  · show s.reserve.handleReadCounts (reqArgs p) = _
    unfold State.handleReadCounts
    rw [hargs, oneByte_singleton]
    split
    · next h0 => have := Option.some.inj h0; omega
    · next h1 => have := Option.some.inj h1; omega
    · rfl

/-! ### Snapshots and the sampler (R166 to R170) -/

/-- A page and part that exist have records (section 12.3). -/
theorem records_of_pageExists (m : Snapshot) {page part : Nat} (h : pageExists page part = true)
    (free : Nat → Nat → List Byte) : ∃ records, m.records page part free = some records := by
  unfold pageExists at h
  simp only [Bool.or_eq_true, Bool.and_eq_true, beq_iff_eq, decide_eq_true_eq] at h
  unfold Snapshot.records
  rcases h with (⟨rfl, hpart⟩ | ⟨⟨hlow, hhigh⟩, hpart⟩) | ⟨rfl, rfl⟩
  · rw [if_pos rfl, show part = (⟨part, by omega⟩ : Fin 6).1 from rfl, toFin?_val]
    exact ⟨_, rfl⟩
  · rw [if_neg (by omega), if_pos hhigh]
    match part, hpart with
    | 0, _ => exact ⟨_, rfl⟩
    | 1, _ => exact ⟨_, rfl⟩
  · exact ⟨_, rfl⟩

theorem setReport_settled {s : State} (h : s.settled) {r : Report} (ht : r.sampler.tagged = s.report.sampler.tagged) :
    (s.setReport r).settled := h.of_same rfl rfl ht rfl rfl

/-- Removing the tag leaves a settled state settled. -/
theorem untagged_settled {s : State} (h : s.settled) {r : Report} (ht : r.sampler.tagged = none) : (s.setReport r).settled := by
  obtain ⟨hu, hr, _⟩ := (settled_iff s).mp h
  exact (settled_iff _).mpr ⟨hu, hr, fun t h' => by
    rw [show (s.setReport r).report.sampler.tagged = none from ht] at h'
    cases h'⟩

theorem planned_eq_sum (s : State) (k : StationId) :
    s.planned k = ((s.active.gatesOf k).map fun g => s.rate g (s.headOf k) (s.chan g).plannedOpening).sum := by
  unfold State.planned State.plannedExcept
  have hall : (s.active.gatesOf k).filter (fun g => !(fun _ : Gate => false) g) = s.active.gatesOf k :=
    List.filter_eq_self.mpr fun _ _ => rfl
  rw [hall]

/-- Settles O53: the capture field by field, and the requests by their arguments. -/
theorem snapshotAndSamplerRequests : Obligations.SnapshotAndSamplerRequests := by
  intro s p hs
  refine ⟨fun ha hargs => row_granted hs ha rfl nofun ?_ (.inl nofun) (setReport_settled hs.1 rfl),
    fun g => Tab.get_gen .., rfl, rfl, fun k => ?_, fun k => ?_, fun sel ha hargs => ⟨fun hpage => ?_, fun hpage =>
      ⟨fun hnone => ?_, fun m hm => ?_⟩⟩, fun ha hlen => row_granted hs ha rfl nofun ?_ (.inl nofun)
        (untagged_settled hs.1 rfl)⟩
  · show s.reserve.handleSnapshot (reqArgs p) = _
    unfold State.handleSnapshot
    rw [if_pos hargs]
    rfl
  · refine (Tab.get_gen ..).trans ?_
    unfold State.snapStation
    rw [planned_eq_sum]
  · refine (Tab.get_gen ..).trans ?_
    have harrival : ∀ line : List Parcel, nextArrival line = (line.map Parcel.flow).headD 0 := fun line => by
      cases line <;> rfl
    unfold State.snapReach
    simp only [harrival]
    rfl
  · refine row_refused hs ha rfl nofun ?_ (.inl nofun)
    show s.reserve.handleReadSnapshot (reqArgs p) = _
    unfold State.handleReadSnapshot
    rw [hargs]
    exact if_neg (by rw [hpage]; decide)
  · refine row_refused hs ha rfl nofun ?_ (.inl nofun)
    show s.reserve.handleReadSnapshot (reqArgs p) = _
    unfold State.handleReadSnapshot
    rw [hargs]
    simp only
    rw [if_pos hpage, show s.reserve.report.snapshot = none from hnone]
    rfl
  · obtain ⟨records, hrec⟩ := records_of_pageExists m hpage s.freeBytes
    refine ⟨records, hrec, row_granted hs ha rfl nofun ?_ (.inl nofun) (hs.1.of_same rfl rfl rfl rfl rfl)⟩
    show s.reserve.handleReadSnapshot (reqArgs p) = _
    unfold State.handleReadSnapshot
    rw [hargs]
    simp only
    rw [if_pos hpage, show s.reserve.report.snapshot = some m from hm,
      show s.reserve.freeBytes = s.freeBytes from rfl]
    simp only
    rw [hrec]
    rfl
  · show s.reserve.handleSetSampler (reqArgs p) = _
    unfold State.handleSetSampler
    rw [if_pos hlen]
    rfl

/-- Settles O54: by whether a record is valid. -/
theorem readTraceReturnsTheRecord : Obligations.ReadTraceReturnsTheRecord := by
  intro s p hs ha hargs
  refine ⟨fun hnone => row_refused hs ha rfl nofun ?_ (.inl nofun),
    fun r hr => row_granted hs ha rfl nofun ?_ (.inl nofun) (setReport_settled hs.1 rfl)⟩
  · show s.reserve.handleReadTrace (reqArgs p) = _
    unfold State.handleReadTrace
    rw [if_pos hargs, show s.reserve.report.sampler.record = none from hnone]
    rfl
  · show s.reserve.handleReadTrace (reqArgs p) = _
    unfold State.handleReadTrace
    rw [if_pos hargs, show s.reserve.report.sampler.record = some r from hr]
    rfl

end Sys2Proof.Machine
end

section
/-! The Responder's taking of a request: the inbox, the rows, and the requests that are refused (R149, R154). -/

namespace Sys2Proof.Machine

/-! ### Refusals -/

/-- An answer other than DONE leaves the state as it was. -/
def Answer.RefusesFrom (a : Answer) (s : State) : Prop := a.status ≠ .done → a.state = s

theorem deny_refuses {s : State} {status : Status} : (s.deny status).RefusesFrom s := fun _ => rfl

theorem grant_refuses {s t : State} {results : List Byte} : (t.grant results).RefusesFrom s := fun h => absurd rfl h

theorem invalidPlan_refuses {s : State} {f : Nat × Nat × Nat} : (s.invalidPlan f).RefusesFrom s := fun _ => rfl

theorem denyCommit_refuses {s : State} {reason : CommitReason} {g : Nat} : (s.denyCommit reason g).RefusesFrom s := fun _ => rfl

/-- A request not answered DONE leaves the state as it was. -/
theorem handle_refuses (s : State) (r : Request) (args : List Byte) : (s.handle r args).RefusesFrom s := by
  cases r with
  | badKind => exact deny_refuses
  | readEntry => exact fun _ => handleReadEntry_state ..
  | openLoad =>
    show (s.handleOpenLoad args).RefusesFrom s
    unfold State.handleOpenLoad
    split
    · split
      · exact deny_refuses
      · exact grant_refuses
    · exact deny_refuses
  | writeEntry =>
    show (s.handleWriteEntry args).RefusesFrom s
    unfold State.handleWriteEntry
    split
    · exact deny_refuses
    · split
      · split
        · exact deny_refuses
        · exact grant_refuses
      · exact deny_refuses
  | abandon => exact grant_refuses
  | copy =>
    show s.handleCopy.RefusesFrom s
    unfold State.handleCopy
    split
    · exact deny_refuses
    · exact grant_refuses
  | abandonCopy => exact grant_refuses
  | check => exact fun _ => handleCheck_state s
  | commit =>
    show s.handleCommit.RefusesFrom s
    unfold State.handleCommit
    split
    · exact denyCommit_refuses
    · split
      · exact denyCommit_refuses
      · split
        · exact invalidPlan_refuses
        · split
          · exact denyCommit_refuses
          · exact grant_refuses
  | setClock =>
    show (s.handleSetClock args).RefusesFrom s
    unfold State.handleSetClock
    split
    · exact grant_refuses
    · exact deny_refuses
  | resumeStation =>
    show (s.handleResumeStation args).RefusesFrom s
    unfold State.handleResumeStation
    split
    · exact deny_refuses
    · split
      · split <;> exact grant_refuses
      · exact deny_refuses
  | resumeGate =>
    show (s.handleResumeGate args).RefusesFrom s
    unfold State.handleResumeGate
    split
    · exact deny_refuses
    · split
      · exact grant_refuses
      · exact deny_refuses
  | forceGate =>
    show (s.handleForceGate args).RefusesFrom s
    unfold State.handleForceGate
    split
    · split
      · exact deny_refuses
      · split
        · exact grant_refuses
        · exact deny_refuses
    · exact deny_refuses
  | setMemberOut =>
    show (s.handleSetMemberOut args).RefusesFrom s
    unfold State.handleSetMemberOut
    split
    · exact deny_refuses
    · split
      · exact deny_refuses
      · split
        · exact deny_refuses
        · split <;> exact grant_refuses
  | reseedReach =>
    show (s.handleReseedReach args).RefusesFrom s
    unfold State.handleReseedReach
    split
    · exact deny_refuses
    · split
      · exact grant_refuses
      · exact deny_refuses
  | readMarks =>
    show (s.handleReadMarks args).RefusesFrom s
    unfold State.handleReadMarks
    split
    · exact deny_refuses
    · simp only
      split
      · exact grant_refuses
      · exact deny_refuses
  | snapshot =>
    show (s.handleSnapshot args).RefusesFrom s
    unfold State.handleSnapshot
    split
    · exact grant_refuses
    · exact deny_refuses
  | readSnapshot =>
    show (s.handleReadSnapshot args).RefusesFrom s
    unfold State.handleReadSnapshot
    split
    · simp only
      split
      · split
        · exact deny_refuses
        · exact grant_refuses
      · exact deny_refuses
    · exact deny_refuses
  | setSampler =>
    show (s.handleSetSampler args).RefusesFrom s
    unfold State.handleSetSampler
    split
    · exact grant_refuses
    · exact deny_refuses
  | readTrace =>
    show (s.handleReadTrace args).RefusesFrom s
    unfold State.handleReadTrace
    split
    · split
      · exact deny_refuses
      · exact grant_refuses
    · exact deny_refuses
  | readCounts => exact fun _ => handleReadCounts_state ..
  | restart => exact fun _ => handleRestart_state ..

/-- A PLAN_CONTROL request of a permitted set has one argument byte. -/
theorem planAction_length {args : List Byte} {r : Request} (h : planAction args = r) (hr : r ≠ .badKind) : args.length = 1 := by
  have hmap : ∀ {n : Nat}, args.map BitVec.toNat = [n] → args.length = 1 := fun h => by
    rw [← List.length_map (f := BitVec.toNat), h]
    rfl
  unfold planAction at h
  split at h
  case h_6 => exact absurd h.symm hr
  all_goals next hargs => exact hmap hargs

/-- Only a PLAN_CONTROL request of one argument byte asks for an action of PENDING. -/
theorem readRequest_planAction {p : List Byte} {r : Request} (h : readRequest p = r)
    (hr : r = .abandon ∨ r = .copy ∨ r = .abandonCopy ∨ r = .check ∨ r = .commit) : (reqArgs p).length = 1 := by
  have hbad : r ≠ .badKind := by rcases hr with rfl | rfl | rfl | rfl | rfl <;> nofun
  unfold readRequest at h
  split at h
  · exact absurd h.symm hbad
  · split at h
    case h_4 => exact planAction_length h hbad
    all_goals subst h; simp at hr

theorem oneByte_none {args : List Byte} (h : args.length ≠ 1) : oneByte args = none := by
  unfold oneByte
  split
  · exact absurd rfl h
  · rfl

/-- A request with a number of argument bytes its kind does not have is a bad argument (section 12.2). -/
theorem handle_of_misfit (s : State) {p : List Byte} {r : Request} (hr : readRequest p = r)
    (h : r.argsFit (reqArgs p).length = false) : s.handle r (reqArgs p) = s.deny .badArgument := by
  have hplan : (r = .abandon ∨ r = .copy ∨ r = .abandonCopy ∨ r = .check ∨ r = .commit) →
      s.handle r (reqArgs p) = s.deny .badArgument := fun hp => by
    have hone := readRequest_planAction hr hp
    rcases hp with rfl | rfl | rfl | rfl | rfl <;> rw [hone] at h <;> cases h
  have hne : ∀ {n : Nat}, ((reqArgs p).length == n) = false → (reqArgs p).length ≠ n := fun h => beq_eq_false_iff_ne.mp h
  have hempty : ((reqArgs p).length == 0) = false → reqArgs p ≠ [] := fun h he => hne h (by rw [he]; rfl)
  cases r with
  | badKind => rfl
  | readEntry =>
    show s.handleReadEntry (reqArgs p) = _
    unfold State.handleReadEntry
    split
    · next he => exact absurd (by rw [← List.length_map (f := BitVec.toNat), he]; rfl) (hne h)
    · rfl
  | openLoad => exact if_neg fun hc => hne h hc.1
  | writeEntry =>
    have hshort : (reqArgs p).length < 3 := Nat.lt_of_not_le (of_decide_eq_false h)
    show s.handleWriteEntry (reqArgs p) = _
    unfold State.handleWriteEntry
    split
    · rfl
    · exact if_neg (by omega)
  | abandon => exact hplan (.inl rfl)
  | copy => exact hplan (.inr (.inl rfl))
  | abandonCopy => exact hplan (.inr (.inr (.inl rfl)))
  | check => exact hplan (.inr (.inr (.inr (.inl rfl))))
  | commit => exact hplan (.inr (.inr (.inr (.inr rfl))))
  | setClock =>
    refine if_neg ?_
    unfold clockArgs
    rw [decide_eq_false (hne h), Bool.false_and]
    decide
  | resumeStation =>
    show s.handleResumeStation (reqArgs p) = _
    unfold State.handleResumeStation
    rw [oneByte_none (hne h)]
    rfl
  | resumeGate =>
    show s.handleResumeGate (reqArgs p) = _
    unfold State.handleResumeGate
    rw [oneByte_none (hne h)]
    rfl
  | forceGate => exact if_neg (hne h)
  | setMemberOut =>
    have hnone : readMemberOut (reqArgs p) = none := by
      have hlen : ((reqArgs p).map BitVec.toNat).length ≠ 2 := by rw [List.length_map]; exact hne h
      unfold readMemberOut
      split
      · next he => exact absurd (by rw [he]; rfl) hlen
      · next he => exact absurd (by rw [he]; rfl) hlen
      · rfl
    show s.handleSetMemberOut (reqArgs p) = _
    unfold State.handleSetMemberOut
    rw [hnone]
  | reseedReach =>
    show s.handleReseedReach (reqArgs p) = _
    unfold State.handleReseedReach
    rw [oneByte_none (hne h)]
    rfl
  | readMarks =>
    show s.handleReadMarks (reqArgs p) = _
    unfold State.handleReadMarks
    rw [oneByte_none (hne h)]
    rfl
  | snapshot => exact if_neg (hempty h)
  | readSnapshot =>
    show s.handleReadSnapshot (reqArgs p) = _
    unfold State.handleReadSnapshot
    split
    · next he => exact absurd (by rw [he]; rfl) (hne h)
    · rfl
  | setSampler => exact if_neg (hne h)
  | readTrace => exact if_neg (hempty h)
  | readCounts =>
    show s.handleReadCounts (reqArgs p) = _
    unfold State.handleReadCounts
    rw [oneByte_none (hne h)]
  | restart => exact if_neg (hempty h)

/-! ### The rows -/

/-- The command of a request is a row that the request is of, and no request of another command but {ABANDON, COPY} for COPY. -/
theorem exec_command (r : Request) : ∃ row : Request → Bool, row r = true ∧ (∀ s, exec r.command s = s.row row)
    ∧ ∀ q : Request, row q = true → r.command = q.command ∨ (r = .copy ∧ q = .abandonCopy) := by
  have hone : ∀ x q : Request, (q == x) = true → x.command = q.command ∨ (x = .copy ∧ q = .abandonCopy) := fun x q h =>
    .inl (congrArg Request.command (beq_iff_eq.mp h).symm)
  cases r
  case abandon =>
    refine ⟨fun r => r == .abandon || r == .abandonCopy, rfl, fun _ => rfl, fun q h => ?_⟩
    rcases Bool.or_eq_true _ _ ▸ h with h | h <;> cases beq_iff_eq.mp h <;> exact .inl rfl
  case copy =>
    refine ⟨fun r => r == .copy || r == .abandonCopy, rfl, fun _ => rfl, fun q h => ?_⟩
    rcases Bool.or_eq_true _ _ ▸ h with h | h <;> cases beq_iff_eq.mp h
    · exact .inl rfl
    · exact .inr ⟨rfl, rfl⟩
  case abandonCopy =>
    refine ⟨fun r => r == .abandon || r == .abandonCopy, rfl, fun _ => rfl, fun q h => ?_⟩
    rcases Bool.or_eq_true _ _ ▸ h with h | h <;> cases beq_iff_eq.mp h <;> exact .inl rfl
  all_goals exact ⟨_, rfl, fun _ => rfl, hone _⟩

theorem row_idle {s : State} {row : Request → Bool} (hs : s.ready)
    (h : s.inbox = [] ∨ s.ownRoom = false ∨ ∃ p, s.inbox.head? = some p ∧ row (readRequest p) = false) :
    s.row row = .next s := by
  unfold State.row
  rw [begun_of_not_due hs.2.1 hs.2.2, serveRow_idle h, done_of_settled hs.1]

/-- A SET_CLOCK that finds no minute owed, and every other request, is taken at once. -/
theorem beforeTaking_at_once {s : State} {p : List Byte} (h : readRequest p = .setClock → s.minuteOwed = false) :
    s.beforeTaking p = s := by
  by_cases hc : readRequest p = .setClock
  · exact beforeTaking_of (.inr (h hc))
  · exact beforeTaking_of (.inl (setsClock_of_other hc))

/-- A row takes the oldest request and goes on with those behind it. -/
theorem row_serves {s : State} {p : List Byte} {ps : List (List Byte)} {row : Request → Bool} (hs : s.ready)
    (hi : s.inbox = p :: ps) (ho : s.ownRoom = true) (hr : row (readRequest p) = true) (hb : s.beforeTaking p = s) :
    s.row row = .next (State.serve ps.length (s.respond p).betweenRequests) := by
  have hset : (State.serve ps.length (s.respond p).betweenRequests).settled :=
    serve_settled _ (betweenRequests_settled (settled_finish _))
  unfold State.row State.serveRow
  rw [begun_of_not_due hs.2.1 hs.2.2, hi]
  simp only
  rw [if_pos hr, serve_taken _ hi ho hb, done_of_settled hset]

/-- Settles O43: by the right, the argument length, and what the row finds at the front of the inbox. -/
theorem refusedRequestsChangeNothing : Obligations.RefusedRequestsChangeNothing := by
  have hcommand : ∀ {s u : State} {p : List Byte}, s.ready → s.inbox = [p] → s.ownRoom = true →
      s.beforeTaking p = s → s.respond p = u → exec (readRequest p).command s = .next u := fun {s u p} hs hi ho hb hu => by
    obtain ⟨row, hrow, he, _⟩ := exec_command (readRequest p)
    rw [he]
    exact row_answers hs hi ho hrow hb hu
  have hkind : ∀ (s : State) (p : List Byte) (r : Request), s.ready → s.asks p r → (r = .setClock → s.minuteOwed = false) →
      exec r.command s = .next (s.respond p) := by
    rintro s p r hs ⟨hi, ho, _, rfl⟩ hm
    exact hcommand hs hi ho (beforeTaking_at_once hm) rfl
  refine ⟨fun s p hs hi ho hm => ?_, fun s p r hs ha hm => ?_, fun s p hs ha => ?_,
    fun s r hs => ⟨fun h => ?_, fun p hp hc hn => ?_, fun p ps hi ho hr hm => ?_⟩⟩
  · exact hcommand hs hi ho (beforeTaking_of (.inl (setsClock_without_rights hm))) (respond_without_rights hs.1 hm)
  · have hj := judgeRequest_asks ha
    refine ⟨s.respond p, (s.reserve.handle r (reqArgs p)).status, (s.reserve.handle r (reqArgs p)).results,
      hkind s p r hs ha hm, fun hr => ?_, fun hd => ?_, fun hfit => ?_⟩
    · rw [← hj]
      exact respond_replied (by rw [ha.2.2.2]; exact hr)
    · have hstate := handle_refuses s.reserve r (reqArgs p) hd
      refine respond_of_refused hs.1 ha ?_ (.inr hd)
      exact congrArg (fun u => ({ state := u, status := _, results := _ } : Answer)) hstate
    · rw [handle_of_misfit s.reserve ha.2.2.2 hfit]
      exact ⟨rfl, rfl⟩
  · rw [show Instr.mgmtBadKind = Request.badKind.command from rfl, hkind s p .badKind hs ha nofun,
      respond_of_refused hs.1 ha rfl (.inl nofun)]
  · obtain ⟨row, _, he, _⟩ := exec_command r
    rw [he]
    exact row_idle hs (h.imp_right .inl)
  · obtain ⟨row, _, he, honly⟩ := exec_command r
    rw [he]
    refine row_idle hs (.inr (.inr ⟨p, hp, ?_⟩))
    rw [← Bool.not_eq_true]
    intro hrow
    rcases honly _ hrow with h | h
    · exact hc h
    · exact hn h
  · obtain ⟨row, hrow, he, _⟩ := exec_command r
    rw [he]
    exact row_serves hs hi ho (hr ▸ hrow) (beforeTaking_at_once fun h => hm (hr.trans h))

/-! ### The inbox (R149) -/

/-- A MGMT_REQ for the part's node enters the inbox or is dropped. -/
theorem receiveRequest_forNode {s : State} {dest : Byte} {p : List Byte} (hn : s.node = some dest) (hl : p.length ≤ 56) :
    s.receiveRequest dest p = (s.countD PortCounts.addReceived).takeRequestFrame p := by
  have hfor : s.forNode { dest := dest, typ := typMgmtReq, payload := p } = true := by
    unfold State.forNode
    rw [hn]
    simp
  unfold State.receiveRequest
  rw [payloadFits_eq, decide_eq_true hl]
  exact if_pos hfor

/-- The counts of port D are kept by a request that resets nothing. -/
theorem respond_counts {s : State} {p : List Byte} (h : readRequest p ≠ .restart) :
    (s.respond p).portD.counts = s.portD.counts := by
  rw [respond_eq h, finish_portD]
  exact congrArg (fun x => x.2.2.2.2.2.2.2.2.2.2.2.2.2.2) (judgeRequest_outside s.reserve p)

/-- Settles O42: dropped, or taken in and served. -/
theorem requestsEnterTheInbox : Obligations.RequestsEnterTheInbox := by
  intro s dest p hq hn hl
  have harrives : ∀ {t : State}, (s.countD PortCounts.addReceived).takeRequestFrame p = t → t.settled →
      exec (.mgmtReq dest p) s = .next t := fun he ht =>
    arrival_eq (f := fun s => s.receiveRequest dest p) hq ((receiveRequest_forNode hn hl).trans he) ht
  have hset : State.settled { s.countD PortCounts.addReceived with inbox := s.inbox ++ [p] } :=
    hq.1.1.of_same rfl rfl rfl rfl rfl
  have hserve : p ≠ [] → s.inbox.length < 4 → exec (.mgmtReq dest p) s = .next (State.serve (s.inbox.length + 1)
      { s.countD PortCounts.addReceived with inbox := s.inbox ++ [p] }) := fun hp hi =>
    harrives (if_neg (by rintro (h | h); exacts [hp h, Nat.not_le.mpr hi h])) (serve_settled _ hset)
  refine ⟨fun h => harrives (if_pos h) (countD_settled (countD_settled hq.1.1 _) _), fun hp hi ho => ?_, hserve,
    fun hp hi ho hm => ?_⟩
  · have hidle : State.serve (s.inbox.length + 1) { s.countD PortCounts.addReceived with inbox := s.inbox ++ [p] } = _ :=
      serve_idle _ (.inr ho)
    exact (hserve hp hi).trans (congrArg _ hidle)
  · have hone : ({ s.countD PortCounts.addReceived with inbox := s.inbox ++ [p] } : State).inbox = [p] := by
      show s.inbox ++ [p] = [p]
      rw [hi]
      rfl
    refine ⟨_, hserve hp (by rw [hi]; decide), ?_, fun hr => ⟨?_, ?_⟩⟩
    · rw [serve_only _ hone ho (beforeTaking_at_once hm)]
      exact respond_only hone
    · rw [serve_only _ hone ho (beforeTaking_at_once hm)]
      exact respond_counts hr
    · rw [serve_only _ hone ho (beforeTaking_at_once hm)]
      exact ⟨_, _, (respond_replied hr).2⟩

end Sys2Proof.Machine
end

section
/-! The entry layouts of section 12.4: a place written reads back as written, and leaves the other places. -/

namespace Sys2Proof.Machine

/-! ### Pieces of a byte list -/

/-- The `n` bytes from an offset. -/
def piece (b : List Byte) (off n : Nat) : List Byte := (b.drop off).take n

theorem piece_whole {b : List Byte} {n : Nat} (h : b.length = n) : piece b 0 n = b := List.take_of_length_le (Nat.le_of_eq h)

theorem length_piece {b : List Byte} {off n : Nat} (h : off + n ≤ b.length) : (piece b off n).length = n := by
  unfold piece
  rw [List.length_take, List.length_drop]
  omega

theorem piece_append {b : List Byte} {off n off' m : Nat} (h : off' = off + n) :
    piece b off n ++ piece b off' m = piece b off (n + m) := by
  unfold piece
  rw [h, List.take_add, List.drop_drop]

theorem piece_append_append {b : List Byte} {off n off' m : Nat} (l : List Byte) (h : off' = off + n) :
    piece b off n ++ (piece b off' m ++ l) = piece b off (n + m) ++ l := by
  rw [← List.append_assoc, piece_append h]

theorem beBytes_fieldAt {b : List Byte} {off n : Nat} (h : off + n ≤ b.length) : beBytes n (fieldAt b off n) = piece b off n := by
  have := beBytes_beNat (piece b off n)
  rwa [length_piece h] at this

theorem byteOf_byteAt (b : List Byte) (off : Nat) : byteOf (byteAt b off) = b.getD off 0#8 := byteOf_toNat _

theorem singleton_getD {b : List Byte} {off : Nat} (h : off < b.length) : [b.getD off 0#8] = piece b off 1 := by
  unfold piece
  rw [List.take_one_drop_eq_of_lt_length h, List.getD_eq_getElem b 0#8 h]
  rfl

theorem cons_getD {b : List Byte} {off : Nat} (l : List Byte) (h : off < b.length) :
    b.getD off 0#8 :: l = piece b off 1 ++ l := by
  rw [← singleton_getD h]
  rfl

/-- Records of `c` bytes each, one behind the other. -/
theorem flatten_pieces {b : List Byte} {off c : Nat} : ∀ {n : Nat},
    (List.ofFn fun i : Fin n => piece b (off + c * i.1) c).flatten = piece b off (c * n)
  | 0 => by simp [piece]
  | n + 1 => by
    rw [List.ofFn_succ_last, List.flatten_append]
    have ih := flatten_pieces (b := b) (off := off) (c := c) (n := n)
    have hrest : (List.ofFn fun i : Fin n => piece b (off + c * i.castSucc.1) c).flatten = piece b off (c * n) := ih
    rw [hrest, List.flatten_singleton, Nat.mul_succ]
    exact piece_append rfl

/-- Half of the points of a station's table. -/
theorem half_ofFn {α : Type} (f : Fin 16 → α) {half : Nat} (h : half ≤ 1) :
    ((List.ofFn f).drop (8 * half)).take 8 = List.ofFn fun i : Fin 8 => f ⟨8 * half + i.1, by omega⟩ := by
  refine List.ext_getElem (by rw [List.length_take, List.length_drop, List.length_ofFn, List.length_ofFn]; omega)
    fun i h1 h2 => ?_
  rw [List.getElem_take, List.getElem_drop, List.getElem_ofFn, List.getElem_ofFn]

theorem tab_list_eq {n : Nat} {α : Type} (t : Tab n α) : t.list = List.ofFn t.get := by
  refine List.ext_getElem (by simp [t.len]) fun i h1 h2 => ?_
  simp [Tab.get]

/-! ### Each place reads back (R155, R158, R173) -/

/-- What the layouts are made of, put together again. -/
theorem mark_bytes {b : List Byte} {off : Nat} (h : off + 3 ≤ b.length) : (readMark b off).bytes = piece b off 3 := by
  show b.getD off 0#8 :: beBytes 2 (fieldAt b (off + 1) 2) = _
  rw [beBytes_fieldAt (by omega), cons_getD _ (by omega), piece_append rfl]

theorem station_part0 {b : List Byte} (h : b.length = 44) : (readStation b).part0 = b := by
  have hgauges : byteAt b 1 / 16 * 16 + byteAt b 1 % 16 = byteAt b 1 := Nat.div_add_mod' ..
  refine Eq.trans ?_ (piece_whole h)
  unfold StationEntry.part0 readStation
  simp only [hgauges, byteOf_byteAt, mark_bytes, beBytes_fieldAt, h, Nat.reduceAdd, Nat.reduceLeDiff, 
    List.nil_append, List.append_assoc, cons_getD, Nat.reduceLT, piece_append, piece_append_append]

theorem reach_bytes {b : List Byte} (h : b.length = 3) : (readReach b).bytes = b := by
  refine Eq.trans ?_ (piece_whole h)
  unfold ReachEntry.bytes readReach
  simp only [byteOf_byteAt, beBytes_fieldAt, h, Nat.reduceAdd, Nat.reduceLeDiff, cons_getD, Nat.reduceLT, piece_append]

theorem gate_bytes {b : List Byte} (h : b.length = 19) : (readGate b).bytes = b := by
  refine Eq.trans ?_ (piece_whole h)
  unfold GateEntry.bytes readGate
  simp only [byteOf_byteAt, beBytes_fieldAt, h, Nat.reduceAdd, Nat.reduceLeDiff, List.nil_append,
    List.append_assoc, cons_getD, Nat.reduceLT, piece_append, piece_append_append]

theorem auth_bytes {b : List Byte} (h : b.length = 5) : (readAuth b).bytes = b := by
  refine Eq.trans ?_ (piece_whole h)
  unfold AuthEntry.bytes readAuth
  simp only [byteOf_byteAt, h, Nat.reduceAdd, cons_getD, Nat.reduceLT, piece_append, List.append_nil]

theorem sched_bytes {b : List Byte} (h : b.length = 10) : (readSched b).bytes = b := by
  refine Eq.trans ?_ (piece_whole h)
  unfold SchedEntry.bytes readSched
  simp only [byteOf_byteAt, beBytes_fieldAt, h, Nat.reduceAdd, Nat.reduceLeDiff, List.nil_append,
    List.append_assoc, cons_getD, Nat.reduceLT, piece_append, piece_append_append]

/-- A table of two-byte fields. -/
theorem fields_bytes {b : List Byte} {off n : Nat} (h : off + 2 * n ≤ b.length) :
    ((Tab.gen fun i : Fin n => fieldAt b (off + 2 * i.1) 2).list.map (beBytes 2)).flatten = piece b off (2 * n) := by
  rw [← flatten_pieces]
  refine congrArg List.flatten ?_
  show (List.ofFn _).map _ = _
  rw [List.map_ofFn]
  refine congrArg List.ofFn (funext fun i => ?_)
  exact beBytes_fieldAt (by omega)

theorem surface_part0 {b : List Byte} (h : b.length = 33) : (readSurface b).part0 = b := by
  refine Eq.trans ?_ (piece_whole h)
  unfold SurfaceEntry.part0 readSurface
  simp only [byteOf_byteAt, h, fields_bytes, Nat.reduceAdd, Nat.reduceMul, Nat.reduceLeDiff, 
    List.nil_append, List.append_assoc, cons_getD, Nat.reduceLT, piece_append, piece_append_append]

theorem row_bytes (e : SurfaceEntry) (j : Fin 6) {b : List Byte} (h : b.length = 18) : (e.withRow j b).rowBytes j = b := by
  refine Eq.trans ?_ (piece_whole h)
  unfold SurfaceEntry.rowBytes SurfaceEntry.withRow
  simp only [Tab.get_set_self]
  have := fields_bytes (b := b) (off := 0) (n := 9) (by omega)
  simpa only [Nat.zero_add] using this

theorem gang_bytes {b : List Byte} (h : b.length = 16) : (readGang b).bytes = b := by
  have hmembers : (Tab.gen fun i : Fin 8 => byteAt b (2 + i.1)).list.map byteOf = piece b 2 8 := by
    have := flatten_pieces (b := b) (off := 2) (c := 1) (n := 8)
    rw [← this]
    show (List.ofFn _).map _ = _
    rw [List.map_ofFn]
    simp only [Function.comp_def, byteOf_byteAt]
    rw [← List.flatMap_singleton' (List.ofFn fun i : Fin 8 => b.getD (2 + i.1) 0#8), List.flatMap_def, List.map_ofFn]
    refine congrArg List.flatten (congrArg List.ofFn (funext fun i => ?_))
    rw [Nat.one_mul]
    exact singleton_getD (by omega)
  refine Eq.trans ?_ (piece_whole h)
  unfold GangEntry.bytes readGang
  simp only [hmembers, byteOf_byteAt, beBytes_fieldAt, h, Nat.reduceAdd, Nat.reduceLeDiff, List.nil_append,
    List.append_assoc, cons_getD, Nat.reduceLT, piece_append, piece_append_append]

/-- The half of the points written is read back. -/
theorem points_bytes (e : StationEntry) {half : Nat} (hhalf : half ≤ 1) {b : List Byte} (h : b.length = 48) :
    (e.withPoints half b).pointBytes half = b := by
  refine Eq.trans ?_ (piece_whole h)
  rw [show (48 : Nat) = 6 * 8 from rfl, ← flatten_pieces]
  unfold StationEntry.pointBytes StationEntry.withPoints
  show ((List.take 8 (List.drop (8 * half) (List.ofFn _))).map _).flatten = _
  rw [half_ofFn _ hhalf, List.map_ofFn]
  refine congrArg List.flatten (congrArg List.ofFn (funext fun i => ?_))
  have hdiv : (8 * half + i.1) / 8 = half := by omega
  have hmod : (8 * half + i.1) % 8 = i.1 := by omega
  simp only [Function.comp_def, hdiv, hmod, if_true]
  rw [beBytes_fieldAt (by omega), beBytes_fieldAt (by omega), piece_append rfl, Nat.zero_add, Nat.mul_comm]

/-- The other half of the points stays. -/
theorem points_other (e : StationEntry) {half other : Nat} (hother : other ≤ 1) (hne : other ≠ half) (b : List Byte) :
    (e.withPoints half b).pointBytes other = e.pointBytes other := by
  unfold StationEntry.pointBytes StationEntry.withPoints
  rw [tab_list_eq e.points]
  show ((List.take 8 (List.drop (8 * other) (List.ofFn _))).map _).flatten = _
  rw [half_ofFn _ hother, half_ofFn _ hother]
  refine congrArg (fun l => (List.map _ l).flatten) (congrArg List.ofFn (funext fun i => ?_))
  exact if_neg (show ¬ (8 * other + i.1) / 8 = half by omega)

theorem row_other (e : SurfaceEntry) {j k : Fin 6} (hne : k ≠ j) (b : List Byte) :
    (e.withRow j b).rowBytes k = e.rowBytes k := by
  unfold SurfaceEntry.rowBytes SurfaceEntry.withRow
  simp only [Tab.get_set_ne _ _ hne]

/-- A place written reads back as written. -/
theorem read_write_self (plan : Plan) (place : PlanPlace) {entry : List Byte} (h : entry.length = place.size)
    (hhalf : ∀ k half, place = .points k half → half ≤ 1) : (plan.write place entry).read place = entry := by
  cases place with
  | header => exact (beBytes_fieldAt (Nat.le_of_eq h.symm)).trans (piece_whole h)
  | station k => exact (congrArg StationEntry.part0 (Tab.get_set_self ..)).trans (station_part0 h)
  | points k half =>
    exact (congrArg (StationEntry.pointBytes · half) (Tab.get_set_self ..)).trans (points_bytes _ (hhalf k half rfl) h)
  | reach k => exact (congrArg ReachEntry.bytes (Tab.get_set_self ..)).trans (reach_bytes h)
  | surface f => exact (congrArg SurfaceEntry.part0 (Tab.get_set_self ..)).trans (surface_part0 h)
  | row f j => exact (congrArg (SurfaceEntry.rowBytes · j) (Tab.get_set_self ..)).trans (row_bytes _ j h)
  | gate g => exact (congrArg GateEntry.bytes (Tab.get_set_self ..)).trans (gate_bytes h)
  | gang c => exact (congrArg GangEntry.bytes (Tab.get_set_self ..)).trans (gang_bytes h)
  | auth n => exact (congrArg AuthEntry.bytes (Tab.get_set_self ..)).trans (auth_bytes h)
  | sched n => exact (congrArg SchedEntry.bytes (Tab.get_set_self ..)).trans (sched_bytes h)

/-- What one entry of a table reads is not changed by a write of another entry. -/
theorem read_set {n : Nat} {α β : Type} (t : Tab n α) (i j : Fin n) (v : α) (f : α → β) (h : j = i → f v = f (t.get i)) :
    f ((t.set i v).get j) = f (t.get j) := by
  rw [Tab.get_set]
  split
  · next he => rw [h he, he]
  · rfl

/-- A write leaves what another place reads, but that part 0 of a station or surface entry clears the rest of the entry. -/
theorem read_write_other (plan : Plan) (place other : PlanPlace) (entry : List Byte) (hne : other ≠ place)
    (hhalf : ∀ k half, other = .points k half → half ≤ 1) (hs : ∀ k half, place = .station k → other ≠ .points k half)
    (hf : ∀ f j, place = .surface f → other ≠ .row f j) : (plan.write place entry).read other = plan.read other := by
  cases place with
  | header => cases other <;> first | rfl | exact absurd rfl hne
  | station k =>
    cases other with
    | station j => exact read_set _ k j _ StationEntry.part0 fun h => absurd (h ▸ rfl) hne
    | points j half => exact read_set _ _ _ _ (StationEntry.pointBytes · half) fun h => absurd (h ▸ rfl) (hs k half rfl)
    | _ => rfl
  | points k half =>
    cases other with
    | station j => exact read_set _ k j _ StationEntry.part0 fun _ => rfl
    | points j other =>
      refine read_set _ _ _ _ (StationEntry.pointBytes · other) fun h => points_other _ (hhalf j other rfl) ?_ _
      rintro rfl
      exact hne (h ▸ rfl)
    | _ => rfl
  | reach k =>
    cases other with
    | reach j => exact read_set _ k j _ ReachEntry.bytes fun h => absurd (h ▸ rfl) hne
    | _ => rfl
  | surface f =>
    cases other with
    | surface j => exact read_set _ f j _ SurfaceEntry.part0 fun h => absurd (h ▸ rfl) hne
    | row i j => exact read_set _ _ _ _ (SurfaceEntry.rowBytes · j) fun h => absurd (h ▸ rfl) (hf f j rfl)
    | _ => rfl
  | row f j =>
    cases other with
    | surface i => exact read_set _ f i _ SurfaceEntry.part0 fun _ => rfl
    | row i m =>
      refine read_set _ _ _ _ (SurfaceEntry.rowBytes · m) fun h => row_other _ ?_ _
      rintro rfl
      exact hne (h ▸ rfl)
    | _ => rfl
  | gate g =>
    cases other with
    | gate j => exact read_set _ g j _ GateEntry.bytes fun h => absurd (h ▸ rfl) hne
    | _ => rfl
  | gang c =>
    cases other with
    | gang j => exact read_set _ c j _ GangEntry.bytes fun h => absurd (h ▸ rfl) hne
    | _ => rfl
  | auth n =>
    cases other with
    | auth j => exact read_set _ n j _ AuthEntry.bytes fun h => absurd (h ▸ rfl) hne
    | _ => rfl
  | sched n =>
    cases other with
    | sched j => exact read_set _ n j _ SchedEntry.bytes fun h => absurd (h ▸ rfl) hne
    | _ => rfl

/-- Settles O46: by the place. -/
theorem writtenEntriesReadBack : Obligations.WrittenEntriesReadBack := by
  intro plan place entry h hhalf
  refine ⟨read_write_self plan place h hhalf, fun other hne ho hs hf => read_write_other plan place other entry hne ho hs hf,
    fun k hk i => ?_, fun f hf j i => ?_⟩
  · subst hk
    show Tab.get (StationEntry.points (Tab.get (Tab.set _ k _) k)) i = _
    rw [Tab.get_set_self]
    exact Tab.get_gen ..
  · subst hf
    show Tab.get (Tab.get (SurfaceEntry.nodes (Tab.get (Tab.set _ f _) f)) j) i = _
    rw [Tab.get_set_self]
    exact (congrArg (Tab.get · i) (Tab.get_gen ..)).trans (Tab.get_gen ..)

end Sys2Proof.Machine
end

section
/-! Stages and windows (R51 to R53), the second tick (R128 to R131) and the outflow of a minute (R46). -/

namespace Sys2Proof.Machine

/-! ### The stage rules -/

theorem Stage.max_code (a b : Stage) : (a.max b).code = max a.code b.code := by
  unfold Stage.max
  split
  · next h => exact (Nat.max_eq_right (Nat.le_of_lt h)).symm
  · next h => exact (Nat.max_eq_left (Nat.le_of_not_lt h)).symm

theorem Stage.eq_of_code {a b : Stage} (h : a.code = b.code) : a = b := by cases a <;> cases b <;> first | rfl | cases h

theorem Stage.normal_of_code {a : Stage} (h : a.code = 0) : a = .normal := Stage.eq_of_code h

theorem Stage.pred_code (a : Stage) : a.pred.code = a.code - 1 := by cases a <;> rfl

/-- The stage of a prediction is NORMAL, or its threshold is at or below the prediction. -/
theorem stageFor_threshold (e : StationEntry) (pred : Nat) :
    e.stageFor pred = .normal ∨ e.threshold (e.stageFor pred) ≤ pred := by
  unfold StationEntry.stageFor
  split
  · next h => exact .inr h
  · split
    · next h => exact .inr h
    · split
      · next h => exact .inr h
      · exact .inl rfl

/-- Every stage whose threshold is reached lies at or below the stage of the prediction. -/
theorem code_le_stageFor {e : StationEntry} {pred : Nat} {st : Stage} (hn : st ≠ .normal) (h : e.threshold st ≤ pred) :
    st.code ≤ (e.stageFor pred).code := by
  unfold StationEntry.stageFor
  cases st with
  | normal => exact absurd rfl hn
  | watch =>
    have h : e.sWatch ≤ pred := h
    by_cases h3 : e.sSur ≤ pred
    · rw [if_pos h3]; decide
    · by_cases h2 : e.sPre ≤ pred
      · rw [if_neg h3, if_pos h2]; decide
      · rw [if_neg h3, if_neg h2, if_pos h]
  | preRelease =>
    have h : e.sPre ≤ pred := h
    by_cases h3 : e.sSur ≤ pred
    · rw [if_pos h3]; decide
    · rw [if_neg h3, if_pos h]
  | surcharge =>
    have h : e.sSur ≤ pred := h
    rw [if_pos h]

/-- The next stage: the candidate above, one below when the prediction falls behind the hysteresis with no floor against it, or
the stage held (R51, R52). -/
theorem nextStage_cases (e : StationEntry) (stage : Stage) (pred : Nat) (level : Option Nat) :
    (stage.code < (e.nextStage stage pred level).code
        ∧ e.nextStage stage pred level = (e.stageFor pred).max (e.activeFloor level))
    ∨ (((e.stageFor pred).max (e.activeFloor level)).code ≤ stage.code ∧ stage ≠ .normal
        ∧ pred + e.hysteresis < e.threshold stage ∧ (e.activeFloor level).code < stage.code
        ∧ e.nextStage stage pred level = stage.pred)
    ∨ (((e.stageFor pred).max (e.activeFloor level)).code ≤ stage.code
        ∧ ¬ (stage ≠ .normal ∧ pred + e.hysteresis < e.threshold stage ∧ (e.activeFloor level).code < stage.code)
        ∧ e.nextStage stage pred level = stage) := by
  unfold StationEntry.nextStage
  simp only
  split
  · next h => exact .inl ⟨h, rfl⟩
  · next h =>
    split
    · next hf => exact .inr (.inl ⟨Nat.le_of_not_lt h, hf.1, hf.2.1, hf.2.2, rfl⟩)
    · next hf => exact .inr (.inr ⟨Nat.le_of_not_lt h, hf, rfl⟩)

/-- The candidate lies at or below the next stage. -/
theorem candidate_le_nextStage (e : StationEntry) (stage : Stage) (pred : Nat) (level : Option Nat) :
    ((e.stageFor pred).max (e.activeFloor level)).code ≤ (e.nextStage stage pred level).code := by
  rcases nextStage_cases e stage pred level with ⟨_, he⟩ | ⟨hle, hn, hlow, hfloor, he⟩ | ⟨hle, _, he⟩
  · rw [he]
  · have hstage : (e.stageFor pred).code ≠ stage.code := fun hc => by
      have hst := Stage.eq_of_code hc
      rcases stageFor_threshold e pred with h | h
      · exact hn (hst.symm.trans h)
      · rw [hst] at h
        omega
    rw [Stage.max_code] at hle ⊢
    rw [he, Stage.pred_code]
    omega
  · rw [he]
    exact hle

/-- What the checks of a present station entry say of its window (R161). -/
theorem window_bounds {p : Plan} (h : p.Passes) {k : StationId} (hk : (p.stations.get k).isPresent = true) :
    (p.stations.get k).qminEnv ≤ (p.stations.get k).qmaxChan ∧ (p.stations.get k).qmaxChan ≤ (p.stations.get k).qmaxDam
      ∧ (p.stations.get k).qPreFloor ≤ (p.stations.get k).qmaxChan := by
  have hc := h.station k hk
  simp only [Plan.stationChecks, List.forall_mem_cons, Bool.or_eq_false_iff, decide_eq_false_iff_not, Nat.not_lt] at hc
  obtain ⟨_, _, _, _, _, ⟨h6, h6'⟩, h7, _⟩ := hc
  exact ⟨h6, h6', h7⟩

/-- Settles O38: by the three cases of the next stage, and the checks of the entry. -/
theorem stageAndWindow : Obligations.StageAndWindow := by
  refine ⟨fun e stage next pred level hnext => ?_, fun s k stage arrival inflow hs hk => ?_⟩
  · subst hnext
    have hcand := candidate_le_nextStage e stage pred level
    rw [Stage.max_code] at hcand
    refine ⟨fun st hn hst _ _ => (code_le_stageFor hn hst).trans ((Nat.le_max_left ..).trans hcand),
      (Nat.le_max_right ..).trans hcand, fun hlt => ?_, fun hn hlow hfloor hall => ?_, fun hlt => ?_⟩
    · rcases nextStage_cases e stage pred level with ⟨h, _⟩ | ⟨_, _, hlow, hfloor, he⟩ | ⟨_, _, he⟩
      · omega
      · exact ⟨he, hlow, hfloor⟩
      · rw [he] at hlt
        omega
    · rcases nextStage_cases e stage pred level with ⟨h, he⟩ | ⟨_, _, _, _, he⟩ | ⟨_, hnot, _⟩
      · have hstage : (e.stageFor pred).code ≤ stage.code := by
          rcases stageFor_threshold e pred with h' | h'
          · rw [h']; exact Nat.zero_le _
          · by_cases hz : e.stageFor pred = .normal
            · rw [hz]; exact Nat.zero_le _
            · exact hall _ hz h'
        rw [he, Stage.max_code] at h
        omega
      · exact he
      · exact absurd ⟨hn, hlow, hfloor⟩ hnot
    · rcases nextStage_cases e stage pred level with ⟨h, he⟩ | ⟨_, _, _, _, he⟩ | ⟨_, _, he⟩
      · rw [he] at hlt ⊢
        unfold Stage.max at hlt ⊢
        split
        · exact .inr rfl
        · next hmax =>
          rw [if_neg hmax] at hlt
          have hne : e.stageFor pred ≠ .normal := fun hz => by
            rw [hz] at hlt
            exact absurd hlt (Nat.not_lt_zero _)
          exact .inl ⟨hne, (stageFor_threshold e pred).resolve_left hne⟩
      · rw [he, Stage.pred_code] at hlt
        omega
      · rw [he] at hlt
        omega
  · obtain ⟨h1, h2, h3⟩ := window_bounds (Plan.passes_of_valid hs.1) hk
    have h1 : (s.stationEntry k).qminEnv ≤ (s.stationEntry k).qmaxChan := h1
    have h2 : (s.stationEntry k).qmaxChan ≤ (s.stationEntry k).qmaxDam := h2
    have h3 : (s.stationEntry k).qPreFloor ≤ (s.stationEntry k).qmaxChan := h3
    cases stage with
    | normal => exact h1
    | watch => exact h1
    | preRelease => exact Nat.max_le.mpr ⟨h1, h3⟩
    | surcharge => exact Nat.max_le.mpr ⟨h1.trans h2, Nat.min_le_right ..⟩

/-! ### The second tick -/

theorem channel_tick_keeps (c : Channel) (limit : Nat) : (c.tick limit).measured = c.measured
    ∧ (c.tick limit).governed = c.governed ∧ (c.tick limit).source = c.source ∧ (c.tick limit).tag = c.tag
    ∧ (c.tick limit).stale = c.stale ∧ (c.tick limit).clamp = c.clamp ∧ (c.tick limit).start = c.start
    ∧ (c.tick limit).dwellDir = c.dwellDir ∧ (c.tick limit).silencePending = c.silencePending
    ∧ (c.tick limit).state = c.state.tick := by
  unfold Channel.tick
  simp only
  split <;> exact ⟨rfl, rfl, rfl, rfl, rfl, rfl, rfl, rfl, rfl, rfl⟩

/-- A tick leaves what the end of an event looks at, so that a settled state stays settled. -/
theorem tick_settled {s : State} (h : s.settled) : s.tick.settled := by
  obtain ⟨hu, hr, hgo⟩ := (settled_iff s).mp h
  refine (settled_iff _).mpr ⟨hu, hr, fun t ht => ?_⟩
  have hs := hgo t ht
  have hchan : s.tick.chan t.gate = (s.chan t.gate).tick (s.gateEntry t.gate).staleLimit := Tab.get_gen ..
  obtain ⟨hm, hg, _, _, _, _, _, _, _, hstate⟩ := channel_tick_keeps (s.chan t.gate) (s.gateEntry t.gate).staleLimit
  have hwork : s.tick.hasWork t.gate = s.hasWork t.gate := by
    unfold State.hasWork
    rw [hchan, hm, hg]
    rfl
  unfold State.traceGoesOn at hs ⊢
  rw [hchan, hstate, hwork]
  cases hst : (s.chan t.gate).state with
  | dwell own => cases own <;> rfl
  | step => rfl
  | _ => rw [hst] at hs; exact hs

/-- A part whose queues fit, and that no Responder waits in, takes no request when the transmissions due begin. -/
theorem undisturbed_of_fit {s : State} (hq : s.quiet) (hf : QueuesFit s) : s.undisturbed := by
  obtain ⟨⟨_, _, hd⟩, htold⟩ := hq
  obtain ⟨_, _, _, _, _, _, _, hwait⟩ := hf
  rcases hwait with h | h | h
  · exact ⟨htold, .inl h⟩
  · rw [htold] at h; cases h
  · refine ⟨htold, .inr ⟨?_, decide_eq_false (by rw [h]; exact Nat.not_lt.mpr (Nat.le_add_right ..))⟩⟩
    have hne : s.portD.own ≠ [] := by rintro he; rw [he] at h; cases h
    have hchoice : s.portD.choice.isSome = true := by
      unfold PortD.choice
      split
      · next he => exact absurd he hne
      · rfl
      · rfl
      · split <;> rfl
    unfold State.dueD at hd
    rw [hchoice, Bool.and_true] at hd
    cases hsend : s.portD.sending with
    | none => rw [hsend] at hd; cases hd
    | some f => rfl

/-- Settles O34: the expiries and the minute left over do not touch the clock, and no request is taken. -/
theorem secondTickAdvancesTheClock : Obligations.SecondTickAdvancesTheClock := by
  intro s hq hf
  have hund := undisturbed_of_fit hq hf
  obtain ⟨hclock, hset, hu⟩ := takeAll_of_undisturbed lined_clock calm_clock (expiries ++ minuteEvents .whole) hq.1.1 hund
  have hexec : exec .secondTick s
      = .next ((s.takeAll (expiries ++ minuteEvents .whole)).onLines.tick.finish) := by
    show (s.begun.takeAll _).event _ = _
    unfold State.event
    rw [begun_of_not_due hq.1.2.1 hq.1.2.2, runEvent_of_undisturbed hset hu]
  have hline : (s.takeAll (expiries ++ minuteEvents .whole)).onLines.clock = s.clock :=
    (lined_clock.onLines _).trans hclock
  have hc : ((s.takeAll (expiries ++ minuteEvents .whole)).onLines.tick.finish).clock = s.clock.tick := by
    rw [quiet_clock.finish, ← hline]
    rfl
  have hlast : s.clock.day = (if s.clock.year % 4 = 0 then 366 else 365) → ¬ s.clock.day < lastDay s.clock.year := fun hd =>
    Nat.not_lt.mpr (Nat.le_of_eq hd.symm)
  refine ⟨_, hexec, fun h => ?_, fun h hm => ?_, fun h hm hh => ?_, fun h hm hh hd => ?_, fun h hm hh hd => ⟨fun hy => ?_,
    fun hy => ?_⟩, fun h => ?_⟩
  · rw [hc, Clock.tick, if_pos h]
  · rw [hc, Clock.tick, if_neg (by omega), if_pos hm]
  · rw [hc, Clock.tick, if_neg (by omega), if_neg (by omega), if_pos hh]
  · rw [hc, Clock.tick, if_neg (by omega), if_neg (by omega), if_neg (by omega), if_pos (show s.clock.day < lastDay s.clock.year from hd)]
  · rw [hc, Clock.tick, if_neg (by omega), if_neg (by omega), if_neg (by omega), if_neg (hlast hd),
      if_pos hy]
  · rw [hc, Clock.tick, if_neg (by omega), if_neg (by omega), if_neg (by omega), if_neg (hlast hd),
      if_neg (by omega)]
  · rw [quiet_minuteDue.finish]
    exact if_pos (by rw [hline]; exact h)

/-- Settles O35: with nothing due the tick is the whole of the command. -/
theorem secondTickCountsEveryTimer : Obligations.SecondTickCountsEveryTimer := by
  intro s hq hdue
  have hexec : exec .secondTick s = .next s.tick := by
    show (s.begun.takeAll _).event _ = _
    rw [begun_of_not_due hq.1.2.1 hq.1.2.2, takeAll_of_none_due fun e _ => hdue e]
    exact event_eq hq rfl (tick_settled hq.1.1)
  have hchan : ∀ g, s.tick.chan g = (s.chan g).tick (s.gateEntry g).staleLimit := fun g => Tab.get_gen ..
  have hstation : ∀ k, s.tick.station k = (s.station k).tick (s.stationEntry k).staleLimit := fun k => Tab.get_gen ..
  have hgauge : ∀ k role, (s.tick.station k).gauge role = ((s.station k).gauge role).tick (s.stationEntry k).staleLimit :=
    fun k role => by rw [hstation]; cases role <;> rfl
  refine ⟨_, hexec, fun g => ?_, fun k role => ⟨fun hl => ?_, fun hl => ?_, ?_⟩, fun c => Tab.get_gen ..,
    fun k => Tab.get_gen .., fun h => if_neg h, ?_⟩
  · obtain ⟨k1, k2, k3, k4, k5, k6, k7, k8, k9, kstate⟩ := channel_tick_keeps (s.chan g) (s.gateEntry g).staleLimit
    have hkeep : ((s.tick).chan g).state = (s.chan g).state.tick := (congrArg Channel.state (hchan g)).trans kstate
    have hun : (s.chan g).state.tick = .unbound ↔ (s.chan g).state = .unbound := by
      cases (s.chan g).state with
      | dwell own => cases own <;> exact ⟨nofun, nofun⟩
      | step => exact ⟨nofun, nofun⟩
      | _ => exact Iff.rfl
    refine ⟨fun hm hu => ?_, fun hm => ?_, fun x n hst => ?_, fun n hst => ?_, fun hst hdw => ?_, ?_⟩
    · have hc : ((s.chan g).measured.isSome && (s.chan g).state.tick != .unbound) = true := by
        rw [Bool.and_eq_true, bne_iff_ne]
        exact ⟨Option.isSome_iff_ne_none.mpr hm, fun h => hu (hun.mp h)⟩
      rw [hchan]
      unfold Channel.tick
      simp only
      rw [if_pos hc]
      refine ⟨rfl, ?_⟩
      simp
    · rw [hchan]
      unfold Channel.tick
      simp only [hm]
      exact ⟨rfl, rfl⟩
    · rw [hkeep, hst]; rfl
    · rw [hkeep, hst]; rfl
    · rw [hkeep]
      cases hs : (s.chan g).state with
      | step => rw [hs] at hst; cases hst
      | dwell own =>
        cases own with
        | none => rfl
        | some n => exact absurd hs (hdw n)
      | _ => rfl
    · rw [hchan]
      exact ⟨k1, k2, k3, k4, k5, k6, k7, k8, k9⟩
  · rw [hgauge]
    unfold GaugeRec.tick
    rw [if_pos (Option.isSome_iff_ne_none.mpr hl)]
    refine ⟨rfl, rfl, rfl, ?_⟩
    simp
  · rw [hgauge]
    unfold GaugeRec.tick
    rw [if_neg (by rw [hl]; decide)]
  · rw [hstation]
    rfl
  · intro x hx
    cases x <;> first | exact ⟨rfl, rfl⟩ | rfl | simp at hx

/-! ### The outflow of a minute (R46, R131) -/

/-- A station record at its outflow event, with the plan and the measured openings of `s`. -/
def State.flowing (s : State) (k : StationId) (r : Station) : Station :=
  if (s.stationEntry k).isPresent then
    { r with
      qOut := ((s.active.gatesOf k).map fun g => match (s.chan g).measured with
        | some o => s.rate g (headFor (s.stationEntry k) r) o
        | none => 0).sum
      positioned := s.allPositioned k }
  else r

theorem outflowEvent_eq (s : State) (k : StationId) : s.outflowEvent k = s.setStation k (s.flowing k (s.station k)) := by
  unfold State.outflowEvent State.flowing
  split
  · rfl
  · exact (setStation_station_self ..).symm

/-- The outflow events of all stations write each record once. -/
theorem outflowEvents_station (s : State) (k : StationId) :
    (forEach (allFin 6) (fun k s => s.outflowEvent k) s).station k = s.flowing k (s.station k) := by
  have h := forEach_at State.station (fun k s => s.outflowEvent k) (fun t => t.store = s.store ∧ t.chans = s.chans) s.flowing
    (fun a t ht => by rw [outflowEvent_eq]; exact ht)
    (fun a t ht => by
      rw [outflowEvent_eq, station_setStation, if_pos rfl]
      unfold State.flowing State.allPositioned State.rate State.gateEntry State.stationEntry State.active State.chan
      rw [ht.1, ht.2])
    (fun a b t _ hne => by rw [outflowEvent_eq, station_setStation, if_neg hne]) (allFin_nodup 6) (s := s) ⟨rfl, rfl⟩
  exact h.1 k (mem_allFin k)

theorem outflowEvents_sameBut (s : State) :
    SameBut [.stations] s (forEach (allFin 6) (fun k s => s.outflowEvent k) s) := by
  refine forEach_preserves (P := SameBut [.stations] s) (fun k t ht => ?_) _ _ (SameBut.refl _ _)
  rw [outflowEvent_eq]
  refine ht.trans fun x hx => ?_
  cases x <;> first | exact ⟨rfl, rfl⟩ | rfl | simp at hx

/-- The outflow events of a minute are no longer owed. -/
def State.outflowTaken (s : State) : State := { s with minuteDue := { s.minuteDue with outflow := false } }

theorem station_outflowTaken (s : State) (k : StationId) : s.outflowTaken.station k = s.station k := rfl

theorem minuteDue_outflowTaken (s : State) : s.outflowTaken.minuteDue = { s.minuteDue with outflow := false } := rfl

theorem minuteOutflow_due {s : State} (h : s.minuteDue.outflow = true) :
    s.minuteOutflow = (forEach (allFin 6) (fun k s => s.outflowEvent k) s).outflowTaken := by
  unfold State.minuteOutflow
  rw [if_pos h]
  rfl

theorem minuteDue_sameBut (s : State) (d : MinuteDue) : SameBut [.minuteDue] s { s with minuteDue := d } := by
  intro x hx
  cases x <;> first | exact ⟨rfl, rfl⟩ | rfl | simp at hx

/-- A settled state stays settled when the channels, port F, the report and the Plan Store stay. -/
theorem State.settled.of_sameBut {s t : State} {ps : List Part} (h : s.settled) (hst : SameBut ps s t) (hc : .chans ∉ ps)
    (hF : .portF ∉ ps) (hr : .report ∉ ps) (hp : .store ∉ ps) : t.settled :=
  h.of_same (congrArg PortF.waitUrgent (hst .portF hF)) (congrArg PortF.waitRoutine (hst .portF hF))
    (congrArg (fun r => r.sampler.tagged) (hst .report hr)) (hst .chans hc) (congrArg PlanStore.active (hst .store hp))

/-- A command of one due event of a minute, from a quiet state, is that event. -/
theorem takeAll_one {s : State} (hq : s.quiet) {e : DueEvent} (hd : s.isDue e = true) :
    s.takeAll [e] = (s.takeDue e).finish := by
  rw [takeAll_of_untold hq.2]
  show (if s.isDue e then s.runWaiting _ else s) = _
  rw [if_pos hd]
  unfold State.runWaiting
  simp only
  rw [begun_of_not_due hq.1.2.1 hq.1.2.2, hq.2]
  rfl

/-- Settles O36: each record is written once, from its own levels and the measured openings. -/
theorem minuteRatesTheOutflow : Obligations.MinuteRatesTheOutflow := by
  intro s hq
  have hbegun := begun_of_not_due hq.1.2.1 hq.1.2.2
  have hnone : ∀ part, (∀ e ∈ minuteEvents part, s.isDue e = false) → exec (.modelMinute part) s = .next s := fun part h => by
    show done (s.begun.takeAll _) = _
    rw [hbegun, takeAll_of_none_due h, done_of_settled hq.1.1]
  refine ⟨fun ho => ?_, fun ho => hnone .outflow ?_, fun hm part => hnone part fun e he => ?_⟩
  · have hsame : SameBut [.stations, .minuteDue] s s.minuteOutflow := by
      rw [minuteOutflow_due ho]
      exact ((outflowEvents_sameBut s).mono (by decide)).trans ((minuteDue_sameBut _ _).mono (by decide))
    have hset : s.minuteOutflow.settled :=
      hq.1.1.of_sameBut hsame (by decide) (by decide) (by decide) (by decide)
    have hexec : exec (.modelMinute .outflow) s = .next s.minuteOutflow := by
      show done (s.begun.takeAll [.outflow]) = _
      rw [hbegun, takeAll_one (e := .outflow) hq ho, show (s.takeDue .outflow).finish = s.minuteOutflow from hset,
        done_of_settled hset]
    have hstation : ∀ k, s.minuteOutflow.station k = s.flowing k (s.station k) := fun k => by
      rw [minuteOutflow_due ho, station_outflowTaken, outflowEvents_station]
    refine ⟨_, hexec, fun k hk => ?_, fun k hk => ?_, ?_, hsame⟩
    · rw [hstation, State.flowing, if_pos hk]
      rfl
    · rw [hstation, State.flowing, if_neg (by rw [hk]; decide)]
    · rw [minuteOutflow_due ho, minuteDue_outflowTaken]
      have hdue : (forEach (allFin 6) (fun k s => s.outflowEvent k) s).minuteDue = s.minuteDue :=
        outflowEvents_sameBut s .minuteDue (by decide)
      rw [hdue]
  · intro e he
    rw [show e = .outflow from List.mem_singleton.mp he]
    exact ho
  · have hout : s.minuteDue.outflow = false := by rw [hm]; rfl
    have hbal : s.minuteDue.balance = [] := by rw [hm]; rfl
    have hsch : s.minuteDue.schedule = false := by rw [hm]; rfl
    have hthree : e = .outflow ∨ e = .balance ∨ e = .schedule := by
      cases part <;> simp [minuteEvents] at he <;> tauto
    rcases hthree with rfl | rfl | rfl
    · exact hout
    · show (!s.minuteDue.balance.isEmpty) = false
      rw [hbal]
      rfl
    · exact hsch

end Sys2Proof.Machine
end

section
/-! What the gang machinery leaves of a channel that is not its to move, and the expiries and increments of a channel
(R9, R11, R13, R15, R45). -/

namespace Sys2Proof.Machine

/-! ### Channels that no gang moves -/

/-- The channel is in none of the states that judging, a gang's hold or a gang's release moves: IDLE, DWELL, HOLD with cause GANG. -/
def ChanState.stays : ChanState → Bool
  | .idle => false
  | .dwell _ => false
  | .hold .gang => false
  | _ => true

theorem startIncrement_sampler (s : State) (g : Gate) (target : Nat) (w : FieldQueue) {tr : Trace}
    (ht : s.report.sampler.tagged = some tr) (hne : tr.gate ≠ g) :
    (s.startIncrement g target w).report.sampler = s.report.sampler := by
  unfold State.startIncrement
  simp only
  generalize hu : State.setPortF _ _ = u
  have hr : u.report = s.report := by
    rw [← hu]
    show (State.enter _ _ _).report = _
    rw [enter_eq]
    split <;> rfl
  unfold State.noteEnqueued
  rw [hr, ht]
  simp only
  rw [if_neg (by rw [decide_eq_false hne, Bool.false_and]; decide)]
  exact congrArg Report.sampler hr

theorem notify_sampler (s : State) (kind : NoticeKind) (subject : Subject) (d v : Nat) :
    (s.notify kind subject d v).report.sampler = s.report.sampler := by
  unfold State.notify
  split <;> rfl

/-- The gang machinery leaves a channel that stays as it is. -/
theorem turns_stays {g : Gate} {c : Channel} (hc : c.state.stays = true) : Turns fun s => s.chan g = c where
  gang _ _ _ h := h
  waits _ _ _ h := h
  notice s kind subject d v h := by
    have : (s.notify kind subject d v).chans = s.chans := notify_sameBut _ _ _ _ _ .chans (by decide)
    exact (congrArg (Tab.get · g) this).trans h
  start s i target hw _ _ h := by
    rw [startIncrement_chan, if_neg]
    · exact h
    · rintro rfl
      rw [← h, workTarget_idle hw] at hc
      cases hc
  hold s i hi h := by
    rw [enter_chan_ne]
    · exact h
    · rintro rfl
      rw [h] at hi
      cases hst : c.state <;> simp_all [ChanState.stays, ChanState.isDwell]
  wake s i hi h := by
    rw [enter_chan_ne]
    · exact h
    · rintro rfl
      rw [h] at hi
      cases hst : c.state <;> simp_all [ChanState.stays, ChanState.isDwell]
  free s i hi h := by
    rw [enter_chan_ne]
    · exact h
    · rintro rfl
      rw [← h, hi] at hc
      cases hc

/-- The gang machinery leaves the sampler while the channel of the command being followed stays. -/
theorem turns_traced {c : Channel} {m : Sampler} {tr : Trace} (hc : c.state.stays = true) (ht : m.tagged = some tr) :
    Turns fun s => s.chan tr.gate = c ∧ s.report.sampler = m where
  gang _ _ _ h := h
  waits _ _ _ h := h
  notice s kind subject d v h := ⟨(turns_stays hc).notice _ _ _ _ _ h.1, (notify_sampler ..).trans h.2⟩
  start s i target hw hm hr h := by
    refine ⟨(turns_stays hc).start _ _ _ hw hm hr h.1, (startIncrement_sampler _ _ _ _ (by rw [h.2]; exact ht) ?_).trans h.2⟩
    rintro rfl
    rw [← h.1, workTarget_idle hw] at hc
    cases hc
  hold s i hi h := ⟨(turns_stays hc).hold _ _ hi h.1, (congrArg Report.sampler (enter_sameBut _ _ _ .report (by decide))).trans h.2⟩
  wake s i hi h := ⟨(turns_stays hc).wake _ _ hi h.1, (congrArg Report.sampler (enter_sameBut _ _ _ .report (by decide))).trans h.2⟩
  free s i hi h := ⟨(turns_stays hc).free _ _ hi h.1, (congrArg Report.sampler (enter_sameBut _ _ _ .report (by decide))).trans h.2⟩

/-! ### The end of a followed command (R169) -/

/-- The cause for which a trace ends when its channel stands in this state. -/
def ChanState.ends : ChanState → Option EndCause
  | .unbound => some .unbound
  | .wait => some .faulted
  | .localHand => some .faulted
  | .fault _ => some .faulted
  | .hold _ => some .held
  | _ => none

theorem endTrace_report {s : State} {tr : Trace} (ht : s.report.sampler.tagged = some tr) (cause : EndCause) :
    (s.endTrace cause).report.sampler = { s.report.sampler with
      tagged := none
      record := some { trace := tr, ended := s.now, cause := cause, endState := (s.chan tr.gate).state.code } } := by
  unfold State.endTrace
  rw [ht]
  rfl

/-- The end of an event ends the trace of a channel that stands in a state that ends it. -/
theorem finish_ends {s : State} {tr : Trace} {cause : EndCause} (ht : s.report.sampler.tagged = some tr)
    (he : (s.chan tr.gate).state.ends = some cause) : s.finish.report.sampler = { s.report.sampler with
      tagged := none
      record := some { trace := tr, ended := s.now, cause := cause, endState := (s.chan tr.gate).state.code } } := by
  have hend : (s.setPortF s.portF.settleWaits).followTrace = (s.setPortF s.portF.settleWaits).endTrace cause := by
    unfold State.followTrace
    rw [show (s.setPortF s.portF.settleWaits).report.sampler.tagged = some tr from ht]
    simp only [chan_setPortF]
    cases hst : (s.chan tr.gate).state <;> rw [hst] at he <;> cases he <;> rfl
  rw [finish_eq, hend]
  exact endTrace_report (s := s.setPortF s.portF.settleWaits) ht cause

/-- A notice stands in UP_OWN behind whatever keeps the own frames placed. -/
theorem noticed_of_prefix {s w t : State} {kind : NoticeKind} {subject : Subject} {d v : Nat} (hD : w.portD.own = s.portD.own)
    (hres : w.portD.reserved = s.portD.reserved) (hgap : w.report.gapMark = s.report.gapMark) (hc : w.clock = s.clock)
    (hp : ∀ l, l <+: (w.notify kind subject d v).portD.own → l <+: t.portD.own) : Noticed s t kind subject d v := by
  intro ho
  have hroom : w.ownRoom = true := by
    unfold State.ownRoom at ho ⊢
    rwa [hD, hres]
  have hnow : w.now = s.now := congrArg Clock.plantTime hc
  have hpre := hp _ (List.prefix_refl _)
  rw [notify_own _ _ _ _ _ hroom, hnow, hgap] at hpre
  exact hpre.subset (List.mem_append_right _ (List.mem_singleton_self _))

/-- A channel that entered a state that stays and ends its trace, with a notice and its event behind it. -/
theorem stopped_event {s w : State} {g : Gate} {cause : EndCause} (hw : SameBut [.chans, .portF] s w)
    (hstay : (w.chan g).state.stays = true) (hends : (w.chan g).state.ends = some cause) (kind : NoticeKind) (subject : Subject)
    (d v : Nat) (gc : GangCause) :
    (((w.notify kind subject d v).chanEvent gc g).finish.chan g = w.chan g)
      ∧ Noticed s ((w.notify kind subject d v).chanEvent gc g).finish kind subject d v
      ∧ ∀ tr, s.report.sampler.tagged = some tr → tr.gate = g →
          ((w.notify kind subject d v).chanEvent gc g).finish.report.sampler.tagged = none
          ∧ ((w.notify kind subject d v).chanEvent gc g).finish.report.sampler.record
            = some { trace := tr, ended := s.now, cause := cause, endState := (w.chan g).state.code } := by
  have hclock := (hw .clock (by decide)).1
  have hD : w.portD = s.portD := hw .portD (by decide)
  have hrep : w.report = s.report := hw .report (by decide)
  have hnote : (w.notify kind subject d v).chan g = w.chan g := (turns_stays hstay).notice _ _ _ _ _ rfl
  have hchan : ((w.notify kind subject d v).chanEvent gc g).chan g = w.chan g := (turns_stays hstay).chanEvent _ _ hnote
  refine ⟨?_, ?_, fun tr ht hg => ?_⟩
  · exact (congrArg (fun c => Tab.get c g) (finish_chans _)).trans hchan
  · refine noticed_of_prefix (w := w) (by rw [hD]) (by rw [hD]) (by rw [hrep]) hclock fun l hl => ?_
    exact (keeps_own l).finish ((keeps_own l).chanEvent gc g hl)
  · subst hg
    have htag : w.report.sampler.tagged = some tr := by rw [hrep]; exact ht
    have hkeep := ((turns_traced (m := w.report.sampler) hstay htag).chanEvent (s := w.notify kind subject d v) gc tr.gate
      ⟨hnote, notify_sampler ..⟩).2
    have hnow : ((w.notify kind subject d v).chanEvent gc tr.gate).now = s.now :=
      congrArg Clock.plantTime ((quiet_clock.chanEvent _ _ _).trans ((quiet_clock.notify ..).trans hclock))
    rw [finish_ends (by rw [hkeep]; exact htag) (by rw [hchan]; exact hends), hnow, hchan]
    exact ⟨rfl, rfl⟩

/-! ### Expiries -/

/-- The channel whose position became stale, marked and in WAIT (R9). -/
def State.atStale (s : State) (g : Gate) : State :=
  if (s.chan g).state = .wait then s.setChan g { s.chan g with stale := true, staleDue := false }
  else (s.setChan g { s.chan g with stale := true, staleDue := false }).enter g .wait

theorem atStale_chan (s : State) (g : Gate) : ((s.atStale g).chan g).state = .wait ∧ ((s.atStale g).chan g).stale = true
    ∧ ((s.atStale g).chan g).measured = (s.chan g).measured ∧ ((s.atStale g).chan g).governed = (s.chan g).governed
    ∧ ((s.atStale g).chan g).source = (s.chan g).source := by
  unfold State.atStale
  split
  · next h =>
    rw [chan_setChan_self]
    exact ⟨h, rfl, rfl, rfl, rfl⟩
  · rw [enter_chan_self, chan_setChan_self]
    exact ⟨rfl, rfl, rfl, rfl, rfl⟩

theorem atStale_sameBut (s : State) (g : Gate) : SameBut [.chans, .portF] s (s.atStale g) := by
  unfold State.atStale
  split
  · exact (setChan_sameBut _ _ _).mono (by decide)
  · exact ((setChan_sameBut _ _ _).mono (by decide)).trans (enter_sameBut _ _ _)

theorem positionGoesStale_due {s : State} {g : Gate} (h : (s.chan g).staleDue = true) (hu : (s.chan g).state ≠ .unbound) :
    s.positionGoesStale g = ((s.atStale g).notify .positionStale (.gate g.1) (packDetail 0 (s.chan g).state.code)
      ((s.chan g).measured.getD 0)).chanEvent .other g :=
  if_pos (by rw [h, Bool.true_and, bne_iff_ne]; exact hu)

theorem positionGoesStale_idle {s : State} {g : Gate} (h : (s.chan g).staleDue = false ∨ (s.chan g).state = .unbound) :
    s.positionGoesStale g = s := by
  refine if_neg ?_
  rcases h with h | h
  · rw [h, Bool.false_and]
    decide
  · rw [h, show (ChanState.unbound != ChanState.unbound) = false from rfl, Bool.and_false]
    decide

theorem stepTimesOut_due {s : State} {g : Gate} {target : Nat} (h : (s.chan g).state = .step target 0) :
    s.stepTimesOut g = ((s.enter g (.hold .stall)).notify .stepStall (.gate g.1) (s.chan g).tag
      (packValue target ((s.chan g).measured.getD 0))).chanEvent .other g := by
  unfold State.stepTimesOut
  simp only
  split
  · next x hst =>
    rw [h] at hst
    cases hst
    rfl
  · next hne => exact absurd h (hne target)

theorem stepTimesOut_idle {s : State} {g : Gate} (h : ∀ target, (s.chan g).state ≠ .step target 0) : s.stepTimesOut g = s := by
  unfold State.stepTimesOut
  simp only

theorem packDetail_zero (n : Nat) : packDetail 0 n = n := by
  unfold packDetail
  omega

/-- Settles O25: the two expiries of a channel stop it, and a gauge record's marks it. -/
theorem expiriesAct : Obligations.ExpiriesAct := by
  intro s hq
  have hidle : ∀ f : State → State, f s = s → s.event f = .next s := fun f h => event_eq hq h hq.1.1
  refine ⟨fun g => ⟨fun hd hu => ?_, fun h => hidle _ (positionGoesStale_idle h), fun target hst => ?_,
    fun h => hidle _ (stepTimesOut_idle h)⟩, fun k role => ⟨fun hd hp => ?_, fun h => hidle _ (if_neg ?_)⟩⟩
  · obtain ⟨hwait, hstale, hm, hg, hsrc⟩ := atStale_chan s g
    obtain ⟨hchan, hnote, htrace⟩ := stopped_event (atStale_sameBut s g) (g := g) (cause := .faulted) (by rw [hwait]; rfl)
      (by rw [hwait]; rfl) .positionStale (.gate g.1) (packDetail 0 (s.chan g).state.code) ((s.chan g).measured.getD 0) .other
    rw [← positionGoesStale_due hd hu] at hchan hnote htrace
    rw [packDetail_zero] at hnote
    rw [hwait] at htrace
    refine ⟨_, event_of_quiet hq _, ?_, ?_, ?_, ?_, ?_, hnote, htrace, sameBut_of_quiet fun q =>
      (q.finish _).trans (q.positionGoesStale s g)⟩
    · rw [hchan, hwait]
    · rw [hchan, hstale]
    · rw [hchan, hm]
    · rw [hchan, hg]
    · rw [hchan, hsrc]
  · have hc : (s.enter g (.hold .stall)).chan g = (s.chan g).inState (.hold .stall) := enter_chan_self ..
    obtain ⟨hchan, hnote, htrace⟩ := stopped_event (enter_sameBut s g (.hold .stall)) (g := g) (cause := .held) (by rw [hc]; rfl)
      (by rw [hc]; rfl) .stepStall (.gate g.1) (s.chan g).tag (packValue target ((s.chan g).measured.getD 0)) .other
    rw [← stepTimesOut_due hst] at hchan hnote htrace
    rw [hc] at hchan htrace
    refine ⟨_, event_of_quiet hq _, ?_, ?_, ?_, ?_, hnote, htrace, sameBut_of_quiet fun q =>
      (q.finish _).trans (q.stepTimesOut s g)⟩
    · rw [hchan]; rfl
    · rw [hchan]; rfl
    · rw [hchan]; rfl
    · rw [hchan]
      exact Bool.and_false _
  · have hgoes : s.gaugeGoesStale k role = (s.setStation k ((s.station k).setGauge role
        { (s.station k).gauge role with stale := true, staleDue := false })).notify .gaugeStale (.station k.1)
          (packDetail (roleCode role) ((s.stationEntry k).gaugeNo role)) (((s.station k).gauge role).level.getD 0) :=
      if_pos (by rw [hd, hp]; rfl)
    have hset : (s.gaugeGoesStale k role).settled := by
      rw [hgoes]
      refine notify_settled ?_ _ _ _ _
      exact hq.1.1.of_same rfl rfl rfl rfl rfl
    have hstation : ∀ j, (s.gaugeGoesStale k role).station j = if j = k then (s.station k).setGauge role
        { (s.station k).gauge role with stale := true, staleDue := false } else s.station j := fun j => by
      rw [hgoes]
      exact (congrArg (fun r => Tab.get r j) (quiet_stations.notify ..)).trans (station_setStation ..)
    refine ⟨_, event_eq hq rfl hset, (hstation k).trans (if_pos rfl), fun j hj => (hstation j).trans (if_neg hj), ?_, ?_⟩
    · rw [hgoes]
      exact notify_sent (s.setStation k _) _ _ _ _
    · rw [hgoes]
      refine SameBut.trans (t := s.setStation k ((s.station k).setGauge role
        { (s.station k).gauge role with stale := true, staleDue := false })) (fun x hx => ?_)
        ((notify_sameBut _ _ _ _ _).mono (by decide))
      cases x <;> first | exact ⟨rfl, rfl⟩ | rfl | simp at hx
  · rcases h with h | h
    · rw [h, Bool.false_and]
      decide
    · rw [h, Bool.and_false]
      decide

/-! ### The start of an increment -/

/-- From a settled state a judging that starts nothing writes the wait lists alone, its event's end included. -/
theorem judge_waits_finish {s : State} (h : s.settled) {g : Gate} {u r : WaitList}
    (hj : s.judge g = s.setPortF { s.portF with waitUrgent := u, waitRoutine := r }) :
    (s.judge g).finish = s.setPortF { s.portF with waitUrgent := u.settle, waitRoutine := r.settle } := by
  obtain ⟨_, _, hgo⟩ := (settled_iff s).mp h
  rw [finish_of_traceGoesOn (s := s.judge g) (by rw [hj]; exact hgo), hj]
  rfl

theorem mem_join_settle (w : WaitList) (g : Gate) : g ∈ (w.join g).settle.settled := by
  have hins : ∀ l : List Gate, g ∈ insertAscending g l := by
    intro l
    induction l with
    | nil => exact List.mem_singleton_self g
    | cons h t ih =>
      unfold insertAscending
      split
      · exact List.mem_cons_self ..
      · exact List.mem_cons_of_mem _ ih
  unfold WaitList.join WaitList.settle
  split
  · next hc =>
    rw [Bool.or_eq_true, List.contains_iff_mem, List.contains_iff_mem] at hc
    exact List.mem_append.mpr hc
  · exact List.mem_append_right _ (hins _)

/-- Settles O27: by the work, the turn and the room. -/
theorem incrementStarts : Obligations.IncrementStarts := by
  intro s g hq
  have hexec : exec (.incrementStart g) s = .next (s.judge g).finish := event_of_quiet hq _
  refine ⟨fun target hw hm => ⟨fun hr => ?_, fun hr => ?_⟩, fun h => ?_, fun target tag => rfl⟩
  · have hj := judge_start hw hm hr
    have hchan : ∀ h, (s.judge g).finish.chan h = (s.startIncrement g target (s.queueFor g)).chan h := fun h => by
      rw [hj]
      exact congrArg (fun c => Tab.get c h) (finish_chans _)
    have hport : (s.judge g).finish.portF = { (s.startIncrement g target (s.queueFor g)).portF with
        waitUrgent := (s.startIncrement g target (s.queueFor g)).portF.waitUrgent.settle
        waitRoutine := (s.startIncrement g target (s.queueFor g)).portF.waitRoutine.settle } := by
      rw [hj]
      exact finish_portF _
    refine ⟨_, hexec, ?_, ?_, ?_, ?_, ?_, ?_, fun h hne => ?_, fun hu => ?_, fun hu => ?_,
      (judge_sameBut s g).trans ((finish_sameBut _).mono (by decide))⟩
    · rw [hchan, startIncrement_chan, if_pos rfl]
    · rw [hchan, startIncrement_chan, if_pos rfl]
    · rw [hchan, startIncrement_chan, if_pos rfl]
    · rw [hchan, startIncrement_chan, if_pos rfl]
    · rw [hchan, startIncrement_chan, if_pos rfl]
    · rw [hchan, startIncrement_chan, if_pos rfl]
    · rw [hchan, startIncrement_chan, if_neg hne]
    · rw [hport, startIncrement_portF, hu]
      exact ⟨rfl, rfl⟩
    · rw [hport, startIncrement_portF, hu]
      exact ⟨rfl, rfl⟩
  · have hj : s.judge g = s.joinWait g (s.queueFor g) := by
      unfold State.judge
      rw [hw]
      simp only
      rw [if_pos hm, if_neg (by rw [hr]; decide)]
    refine ⟨_, hexec, ?_, ?_⟩
    · rw [finish_portF, hj]
      cases s.queueFor g
      · exact mem_join_settle _ g
      · exact mem_join_settle _ g
    · cases hqf : s.queueFor g <;> rw [hqf] at hj <;> rw [judge_waits_finish hq.1.1 hj] <;> exact setPortF_sameBut _ _
  · have hj : s.judge g = s.leaveWaits g := by
      unfold State.judge
      rcases h with h | h
      · rw [h]
      · split
        · rw [h]
          rfl
        · rfl
    rw [hexec, judge_waits_finish hq.1.1 hj]
    exact ⟨_, rfl, setPortF_sameBut _ _, rfl, rfl⟩

end Sys2Proof.Machine
end

section
/-! The field's frames: POSITION and GAUGE, tapped and forwarded (R4, R42 to R44, R57, R58, R142). -/

namespace Sys2Proof.Machine

/-! ### What a POSITION frame leaves beside its channel's position -/

section req

variable {β : Type} {π : State → β} (q : BlindReq π) (s : State)

include q

theorem BlindReq.positionClear (g : Gate) (b : Channel) (o : Nat) : π (s.positionClear g b o) = π s := by
  have hback : π ((s.setChan g { s.chan g with governed := some o, source := .none, clamp := .none }).enter g .idle) = π s :=
    (q.toBlind.enter ..).trans (q.give s g (some o) .none .none (s.chan g).silencePending)
  unfold State.positionClear
  simp only
  split
  · rfl
  · split
    · exact (q.toBlind.notify ..).trans hback
    · exact hback
  · exact (q.toBlind.notify ..).trans hback
  · exact (q.toBlind.notify ..).trans hback
  · split
    · exact q.toBlind.confirm ..
    · rfl
  · rfl
  · rfl
  · rfl

theorem BlindReq.positionTrip (g : Gate) (b : Channel) (o : Nat) : π (s.positionTrip g b o) = π s := by
  have hgive : π (s.setChan g { s.chan g with governed := some o }) = π s :=
    q.give s g (some o) (s.chan g).source (s.chan g).clamp (s.chan g).silencePending
  unfold State.positionTrip
  split
  · simp only
    split
    · exact hgive
    · exact (q.takeTrip ..).trans ((q.toBlind.notify ..).trans ((q.toBlind.enter ..).trans hgive))
  · exact q.toBlind.positionFault ..

/-- Beside the position itself a POSITION frame changes what a request changes. -/
theorem BlindReq.takePosition {g : Gate} (o : Nat) (flags : Byte) (hu : (s.chan g).state ≠ .unbound) :
    π (s.takePosition g o flags) = π (s.setChan g ((s.chan g).withPosition (min o Config.fullOpening))) := by
  unfold State.takePosition
  simp only
  rw [if_neg hu, q.toBlind.chanEvent]
  split
  · exact q.positionClear ..
  · exact q.toBlind.positionLocal ..
  · exact q.toBlind.positionFault ..
  · exact q.positionTrip ..

end req

/-- The measured openings, as frames report them. -/
theorem blindReq_positions (h : Gate) :
    BlindReq fun s => ((s.chan h).measured, (s.chan h).stale, (s.chan h).staleDue, (s.chan h).age) where
  move s g st start dir tag pend := by
    simp only [chan_setChan]
    split
    · next he => subst he; rfl
    · rfl
  gang _ _ _ := rfl
  portF _ _ _ _ _ := rfl
  report _ _ := rfl
  own _ _ := rfl
  give s g gov src mark pend := by
    simp only [chan_setChan]
    split
    · next he => subst he; rfl
    · rfl

theorem forwardUp_sameBut (s : State) (f : LineFrame) : SameBut [.portD] s (s.forwardUp f) := by
  intro x hx
  unfold State.forwardUp
  split <;> cases x <;> first | exact ⟨rfl, rfl⟩ | rfl | simp at hx

theorem countF_sameBut (s : State) (f : PortCounts → PortCounts) : SameBut [.portF] s (s.countF f) := setPortF_sameBut _ _

/-- A frame forwarded from a state whose UP_FWD and counts stand as at first. -/
theorem forwardUp_counts {s u : State} (hfwd : u.portD.fwd = s.portD.fwd) (hc : u.portD.counts = s.portD.counts) (f : LineFrame) :
    (s.portD.fwd.length < 64 → (u.forwardUp f).portD.fwd = s.portD.fwd ++ [f] ∧ (u.forwardUp f).portD.counts = s.portD.counts)
    ∧ (64 ≤ s.portD.fwd.length →
        (u.forwardUp f).portD.fwd = s.portD.fwd ∧ (u.forwardUp f).portD.counts = s.portD.counts.addDropped) := by
  refine ⟨fun h => ?_, fun h => ?_⟩
  · rw [forwardUp_room (by rw [hfwd]; exact h)]
    exact ⟨congrArg (· ++ [f]) hfwd, hc⟩
  · rw [forwardUp_full (by rw [hfwd]; exact h)]
    exact ⟨hfwd, congrArg PortCounts.addDropped hc⟩

theorem receivePosition_fits {s : State} {dest : Byte} {p : List Byte} (hl : p.length ≤ 56) :
    s.receivePosition dest p
      = ((s.countF PortCounts.addReceived).tapPosition p).forwardUp { dest := dest, typ := typPosition, payload := p } :=
  if_pos (decide_eq_true hl)

theorem tapPosition_gate {s : State} {p : List Byte} {g : Gate} (hl : p.length = 4) (hg : byteAt p 0 = g.1) :
    s.tapPosition p = s.takePosition g (fieldAt p 1 2) (p.getD 3 0#8) := by
  unfold State.tapPosition
  rw [if_pos (show p.length = positionLen from hl), hg, toFin?_val]

/-- From a quiet state a POSITION frame for a gate is taken, forwarded and its event ended. -/
theorem exec_position {s : State} (hq : s.quiet) (dest : Byte) {p : List Byte} {g : Gate} (hl : p.length = 4)
    (hg : byteAt p 0 = g.1) : exec (.position dest p) s
      = .next (((s.countF PortCounts.addReceived).takePosition g (fieldAt p 1 2) (p.getD 3 0#8)).forwardUp
          { dest := dest, typ := typPosition, payload := p }).finish := by
  have he : exec (.position dest p) s = .next (s.receivePosition dest p).finish := event_of_quiet hq _
  rw [he, receivePosition_fits (by omega), tapPosition_gate hl hg]

/-- Settles O21: by the length, the gate byte and the binding. -/
theorem positionUpdatesTheChannel : Obligations.PositionUpdatesTheChannel := by
  intro s dest p hq hlen
  have hset := countF_settled hq.1.1 PortCounts.addReceived
  have hplain : ∀ {u : State}, (s.countF PortCounts.addReceived).tapPosition p = u → u.settled →
      exec (.position dest p) s = .next (u.forwardUp { dest := dest, typ := typPosition, payload := p }) := fun he hu =>
    event_eq hq ((receivePosition_fits hlen).trans (by rw [he])) (forwardUp_settled hu _)
  refine ⟨fun g hl hg hu => ?_, fun hl hun => hplain ?_ hset, fun hl => hplain (if_neg hl) (countF_settled hset _),
    fun r hr => event_eq hq (if_neg (by rw [payloadFits_eq, decide_eq_false (Nat.not_le.mpr hr)]; decide))
      (countF_settled hq.1.1 _)⟩
  · generalize hu1 : (s.countF PortCounts.addReceived).takePosition g (fieldAt p 1 2) (p.getD 3 0#8) = u
    have hchans : ∀ f, (u.forwardUp f).finish.chans = u.chans := fun f =>
      (finish_chans _).trans (forwardUp_sameBut u f .chans (by decide))
    have hD := quiet_portD.takePosition (s.countF PortCounts.addReceived) g (fieldAt p 1 2) (p.getD 3 0#8)
    rw [hu1] at hD
    obtain ⟨hroom, hfull⟩ := forwardUp_counts (s := s) (u := u) (congrArg (fun x => x.1) hD)
      (congrArg (fun x => x.2.2.2.2) hD) { dest := dest, typ := typPosition, payload := p }
    have hpos : ∀ h, ((u.chan h).measured, (u.chan h).stale, (u.chan h).staleDue, (u.chan h).age)
        = (if h = g then (some (min (fieldAt p 1 2) 1000), false, false, 0)
            else ((s.chan h).measured, (s.chan h).stale, (s.chan h).staleDue, (s.chan h).age)) := fun h => by
      rw [← hu1]
      refine ((blindReq_positions h).takePosition (s.countF PortCounts.addReceived) _ _ hu).trans ?_
      simp only [chan_setChan]
      split <;> rfl
    have hself := hpos g
    rw [if_pos rfl] at hself
    simp only [Prod.mk.injEq] at hself
    obtain ⟨hm, hst, _, hage⟩ := hself
    have hc : ∀ h, (u.forwardUp { dest := dest, typ := typPosition, payload := p }).finish.chan h = u.chan h := fun h =>
      congrArg (fun c => Tab.get c h) (hchans _)
    have hexec := exec_position hq dest hl hg
    rw [hu1] at hexec
    refine ⟨_, hexec, ?_, ?_, ?_, fun h hne => ?_, ?_, ?_, ?_, ?_⟩
    · rw [hc, hm]
    · rw [hc, hst]
    · rw [hc, hage]
    · have hother := hpos h
      rw [if_neg hne] at hother
      simp only [Prod.mk.injEq] at hother
      rw [hc]
      exact ⟨hother.1, hother.2.1, hother.2.2.2⟩
    · have hF := quiet_portF.takePosition (s.countF PortCounts.addReceived) g (fieldAt p 1 2) (p.getD 3 0#8)
      rw [hu1] at hF
      rw [finish_portF]
      have hline : (u.forwardUp { dest := dest, typ := typPosition, payload := p }).portF = u.portF :=
        forwardUp_sameBut u _ .portF (by decide)
      rw [hline]
      exact congrArg (fun x => x.2.2) hF
    · rw [finish_portD]
      exact hroom
    · rw [finish_portD]
      exact hfull
    · have hquiet : SameBut [.chans, .gangs, .portF, .portD, .report] (s.countF PortCounts.addReceived) u :=
        sameBut_of_quiet fun q => by rw [← hu1]; exact q.takePosition ..
      exact ((((countF_sameBut s _).mono (by decide)).trans hquiet).trans ((forwardUp_sameBut _ _).mono (by decide))).trans
        ((finish_sameBut _).mono (by decide))
  · unfold State.tapPosition
    rw [if_pos (show p.length = positionLen from hl)]
    split
    · next g hgate => exact if_pos (hun g (toFin?_eq_some.mp hgate))
    · rfl

end Sys2Proof.Machine
end

section
/-! GAUGE frames and level marks (R42 to R44, R57, R58). -/

namespace Sys2Proof.Machine

theorem setStation_sameBut (s : State) (k : StationId) (r : Station) : SameBut [.stations] s (s.setStation k r) := by
  intro x hx
  cases x <;> first | exact ⟨rfl, rfl⟩ | rfl | simp at hx

theorem stationEntry_of_sameBut {ps : List Part} {s t : State} (hp : Part.store ∉ ps) (h : SameBut ps s t)
    {k : StationId} : t.stationEntry k = s.stationEntry k := congrArg (fun x : PlanStore => x.active.stations.get k) (h .store hp)

theorem notify_stations (s : State) (kind : NoticeKind) (subject : Subject) (d v : Nat) :
    (s.notify kind subject d v).stations = s.stations := notify_sameBut _ _ _ _ _ .stations (by decide)

@[simp] theorem station_notify (s : State) (kind : NoticeKind) (subject : Subject) (d v : Nat) (j : StationId) :
    (s.notify kind subject d v).station j = s.station j := congrArg (Tab.get · j) (notify_stations ..)

/-- A notice uses up at most one place of UP_OWN. -/
theorem notify_own_length (s : State) (kind : NoticeKind) (subject : Subject) (d v : Nat) :
    (s.notify kind subject d v).portD.own.length ≤ s.portD.own.length + 1
      ∧ (s.notify kind subject d v).portD.reserved = s.portD.reserved := by
  unfold State.notify
  split
  · exact ⟨by rw [show (State.setReport _ _).portD.own = s.portD.own ++ _ from rfl, List.length_append]; exact Nat.le_refl _, rfl⟩
  · exact ⟨Nat.le_succ _, rfl⟩

/-! ### What a record keeps of a crossing -/

/-- The record with a floor reached (R58). -/
def Station.floored (r : Station) (e : StationEntry) (floor : Option Stage) (rising : Bool) : Station :=
  match floor with
  | some f => if rising && decide (r.stage.code < f.code) then { r with stage := f }.withWindow e else r
  | none => r

/-- The record of the mark with a crossing captured (R57). -/
def Station.captureOf (r : Station) (i : Fin 2) (rising : Bool) (level : Nat) (now : PlantTime) : MarkRec :=
  { capture := some { time := now, level := level, rising := rising }, unread := true
    overwrite := (r.markAt i).overwrite || ((r.markAt i).capture.isSome && (r.markAt i).unread) }

/-- The station's record with a crossing captured and its floor reached (R57, R58). -/
def Station.captured (r : Station) (e : StationEntry) (i : Fin 2) (rising : Bool) (level : Nat) (now : PlantTime) : Station :=
  (r.setMark i (r.captureOf i rising level now)).floored e (e.markAt i).floor rising

/-- The direction in which a level crosses a mark that counts it (R57). -/
def crossing (m : MarkEntry) (prev : Option Nat) (level : Nat) : Option Bool :=
  match prev with
  | none => none
  | some p =>
    if m.isPresent && m.countsRising && risesPast m.level p level then some true
    else if m.isPresent && m.countsFalling && fallsPast m.level p level then some false
    else none

/-- The station's record with a mark judged (R57). -/
def Station.judged (r : Station) (e : StationEntry) (prev : Option Nat) (level : Nat) (now : PlantTime) (i : Fin 2) : Station :=
  match crossing (e.markAt i) prev level with
  | some rising => r.captured e i rising level now
  | none => r

theorem judgeMark_eq (s : State) (k : StationId) (prev : Option Nat) (level : Nat) (i : Fin 2) :
    s.judgeMark k prev level i = (crossing ((s.stationEntry k).markAt i) prev level).elim s
      fun rising => s.captureCrossing k i rising level := by
  unfold State.judgeMark crossing
  simp only
  cases prev with
  | none => rfl
  | some p =>
    simp only
    split
    · rfl
    · split <;> rfl

theorem judgeMark_of_crossing {s : State} {k : StationId} {prev : Option Nat} {level : Nat} {i : Fin 2} {rising : Bool}
    (h : crossing ((s.stationEntry k).markAt i) prev level = some rising) :
    s.judgeMark k prev level i = s.captureCrossing k i rising level := by
  rw [judgeMark_eq, h]
  rfl

theorem judgeMark_of_none {s : State} {k : StationId} {prev : Option Nat} {level : Nat} {i : Fin 2}
    (h : crossing ((s.stationEntry k).markAt i) prev level = none) : s.judgeMark k prev level i = s := by
  rw [judgeMark_eq, h]
  rfl

/-- The capture written and its notice handed on, before the floor is judged. -/
def State.crossed (s : State) (k : StationId) (i : Fin 2) (rising : Bool) (level : Nat) : State :=
  (s.setStation k ((s.station k).setMark i ((s.station k).captureOf i rising level s.now))).notify .markCrossed (.station k.1)
    (packDetail i.1 (crossingCode rising * 16 + ((s.station k).captureOf i rising level s.now).overwrite.toNat)) level

theorem crossed_sameBut (s : State) (k : StationId) (i : Fin 2) (rising : Bool) (level : Nat) :
    SameBut [.stations, .portD, .report] s (s.crossed k i rising level) :=
  ((setStation_sameBut _ _ _).mono (by decide)).trans ((notify_sameBut _ _ _ _ _).mono (by decide))

theorem crossed_station (s : State) (k : StationId) (i : Fin 2) (rising : Bool) (level : Nat) (j : StationId) :
    (s.crossed k i rising level).station j
      = if j = k then (s.station k).setMark i ((s.station k).captureOf i rising level s.now) else s.station j := by
  unfold State.crossed
  rw [station_notify, station_setStation]

/-- A capture either leaves the stage or raises it, with one notice more. -/
theorem captureCrossing_cases (s : State) (k : StationId) (i : Fin 2) (rising : Bool) (level : Nat) :
    (s.captureCrossing k i rising level = s.crossed k i rising level
        ∧ (s.station k).captured (s.stationEntry k) i rising level s.now
          = (s.station k).setMark i ((s.station k).captureOf i rising level s.now))
    ∨ ∃ floor, s.captureCrossing k i rising level = (s.crossed k i rising level).raiseByMark k i floor level
        ∧ (s.station k).captured (s.stationEntry k) i rising level s.now
          = { (s.station k).setMark i ((s.station k).captureOf i rising level s.now) with stage := floor }.withWindow
              (s.stationEntry k) := by
  have hrec := crossed_station s k i rising level k
  rw [if_pos rfl] at hrec
  have hentry : (s.crossed k i rising level).stationEntry k = s.stationEntry k :=
    stationEntry_of_sameBut (by decide) (crossed_sameBut s k i rising level)
  have hcap : s.captureCrossing k i rising level = match (((s.crossed k i rising level).stationEntry k).markAt i).floor with
      | some floor => if rising && decide (((s.crossed k i rising level).station k).stage.code < floor.code) then
          (s.crossed k i rising level).raiseByMark k i floor level else s.crossed k i rising level
      | none => s.crossed k i rising level := rfl
  rw [hcap, hentry, hrec]
  unfold Station.captured Station.floored
  cases ((s.stationEntry k).markAt i).floor with
  | none => exact Or.inl ⟨rfl, rfl⟩
  | some f =>
    simp only
    split
    · exact Or.inr ⟨f, rfl, rfl⟩
    · exact Or.inl ⟨rfl, rfl⟩

theorem raiseByMark_sameBut (s : State) (k : StationId) (i : Fin 2) (f : Stage) (level : Nat) :
    SameBut [.stations, .portD, .report] s (s.raiseByMark k i f level) :=
  ((setStation_sameBut _ _ _).mono (by decide)).trans ((notify_sameBut _ _ _ _ _).mono (by decide))

theorem raiseByMark_station (s : State) (k : StationId) (i : Fin 2) (f : Stage) (level : Nat) (j : StationId) :
    (s.raiseByMark k i f level).station j
      = if j = k then { s.station k with stage := f }.withWindow (s.stationEntry k) else s.station j := by
  unfold State.raiseByMark
  simp only
  rw [station_notify, station_setStation]

theorem captureCrossing_sameBut (s : State) (k : StationId) (i : Fin 2) (rising : Bool) (level : Nat) :
    SameBut [.stations, .portD, .report] s (s.captureCrossing k i rising level) := by
  rcases captureCrossing_cases s k i rising level with ⟨h, _⟩ | ⟨f, h, _⟩
  · rw [h]
    exact crossed_sameBut _ _ _ _ _
  · rw [h]
    exact (crossed_sameBut _ _ _ _ _).trans (raiseByMark_sameBut _ _ _ _ _)

theorem captureCrossing_station (s : State) (k : StationId) (i : Fin 2) (rising : Bool) (level : Nat) (j : StationId) :
    (s.captureCrossing k i rising level).station j
      = if j = k then (s.station k).captured (s.stationEntry k) i rising level s.now else s.station j := by
  have hentry : (s.crossed k i rising level).stationEntry k = s.stationEntry k :=
    stationEntry_of_sameBut (by decide) (crossed_sameBut s k i rising level)
  rcases captureCrossing_cases s k i rising level with ⟨h, hr⟩ | ⟨f, h, hr⟩
  · rw [h, hr, crossed_station]
  · rw [h, hr, raiseByMark_station, crossed_station, crossed_station, if_pos rfl, hentry]
    split <;> rfl

theorem captureCrossing_own_length (s : State) (k : StationId) (i : Fin 2) (rising : Bool) (level : Nat) :
    (s.captureCrossing k i rising level).portD.own.length ≤ s.portD.own.length + 2
      ∧ (s.captureCrossing k i rising level).portD.reserved = s.portD.reserved := by
  have hone : (s.crossed k i rising level).portD.own.length ≤ s.portD.own.length + 1
      ∧ (s.crossed k i rising level).portD.reserved = s.portD.reserved := notify_own_length (s.setStation k _) _ _ _ _
  rcases captureCrossing_cases s k i rising level with ⟨h, _⟩ | ⟨f, h, _⟩
  · rw [h]
    exact ⟨by omega, hone.2⟩
  · rw [h]
    have htwo : ((s.crossed k i rising level).raiseByMark k i f level).portD.own.length
        ≤ (s.crossed k i rising level).portD.own.length + 1
        ∧ ((s.crossed k i rising level).raiseByMark k i f level).portD.reserved = (s.crossed k i rising level).portD.reserved :=
      notify_own_length ((s.crossed k i rising level).setStation k _) _ _ _ _
    exact ⟨by omega, by rw [htwo.2, hone.2]⟩

/-- The notice of a capture stands in UP_OWN when there was room. -/
theorem captureCrossing_notice {s : State} (hroom : s.ownRoom = true) (k : StationId) (i : Fin 2) (rising : Bool) (level : Nat) :
    OwnFrame.notice { kind := .markCrossed, subject := .station k.1, time := s.now,
                      detail := packDetail i.1 (crossingCode rising * 16
                        + ((s.station k).captureOf i rising level s.now).overwrite.toNat)
                      value := level, gap := s.report.gapMark } ∈ (s.captureCrossing k i rising level).portD.own := by
  have hown : (s.crossed k i rising level).portD.own = s.portD.own ++ [.notice ⟨.markCrossed, .station k.1, s.now,
      packDetail i.1 (crossingCode rising * 16 + ((s.station k).captureOf i rising level s.now).overwrite.toNat), level,
      s.report.gapMark⟩] := notify_own (s.setStation k _) _ _ _ _ hroom
  have hmem : OwnFrame.notice ⟨.markCrossed, .station k.1, s.now, packDetail i.1 (crossingCode rising * 16
      + ((s.station k).captureOf i rising level s.now).overwrite.toNat), level, s.report.gapMark⟩
      ∈ (s.crossed k i rising level).portD.own := by
    rw [hown]
    exact List.mem_append_right _ (List.mem_singleton_self _)
  rcases captureCrossing_cases s k i rising level with ⟨h, _⟩ | ⟨f, h, _⟩
  · rw [h]
    exact hmem
  · rw [h]
    exact ((keeps_own (s.crossed k i rising level).portD.own).raiseByMark k i f level (List.prefix_refl _)).subset hmem

theorem judgeMark_sameBut (s : State) (k : StationId) (prev : Option Nat) (level : Nat) (i : Fin 2) :
    SameBut [.stations, .portD, .report] s (s.judgeMark k prev level i) := by
  cases h : crossing ((s.stationEntry k).markAt i) prev level with
  | none =>
    rw [judgeMark_of_none h]
    exact SameBut.refl _ _
  | some rising =>
    rw [judgeMark_of_crossing h]
    exact captureCrossing_sameBut _ _ _ _ _

theorem judgeMark_station (s : State) (k : StationId) (prev : Option Nat) (level : Nat) (i : Fin 2) (j : StationId) :
    (s.judgeMark k prev level i).station j
      = if j = k then (s.station k).judged (s.stationEntry k) prev level s.now i else s.station j := by
  unfold Station.judged
  cases h : crossing ((s.stationEntry k).markAt i) prev level with
  | none =>
    rw [judgeMark_of_none h]
    split
    · next he => rw [he]
    · rfl
  | some rising =>
    rw [judgeMark_of_crossing h]
    exact captureCrossing_station ..

theorem judgeMark_own_length (s : State) (k : StationId) (prev : Option Nat) (level : Nat) (i : Fin 2) :
    (s.judgeMark k prev level i).portD.own.length ≤ s.portD.own.length + 2
      ∧ (s.judgeMark k prev level i).portD.reserved = s.portD.reserved := by
  cases h : crossing ((s.stationEntry k).markAt i) prev level with
  | none =>
    rw [judgeMark_of_none h]
    exact ⟨by omega, rfl⟩
  | some rising =>
    rw [judgeMark_of_crossing h]
    exact captureCrossing_own_length ..

/-! ### The record after both marks -/

/-- The record a headwater frame writes before the marks are judged (R43). -/
def Station.heard (r : Station) (e : StationEntry) (level : Nat) (q : Quality) : Station :=
  { r with hw := GaugeRec.fresh level, hwQuality := some q, storage := storageOf e level, storageValid := true }

/-- The record a headwater frame leaves (R43, R57, R58). -/
def Station.afterHeadwater (r : Station) (e : StationEntry) (level : Nat) (q : Quality) (now : PlantTime) : Station :=
  ((r.heard e level q).judged e r.hw.level level now 0).judged e r.hw.level level now 1

/-- The part of a record that no mark touches. -/
def Station.measures (r : Station) : GaugeRec × Option Quality × Nat × Bool := (r.hw, r.hwQuality, r.storage, r.storageValid)

theorem floored_markAt (r : Station) (e : StationEntry) (floor : Option Stage) (rising : Bool) (i : Fin 2) :
    (r.floored e floor rising).markAt i = r.markAt i := by
  unfold Station.floored
  split
  · split <;> rfl
  · rfl

theorem floored_measures (r : Station) (e : StationEntry) (floor : Option Stage) (rising : Bool) :
    (r.floored e floor rising).measures = r.measures := by
  unfold Station.floored
  split
  · split <;> rfl
  · rfl

theorem floored_stage (r : Station) (e : StationEntry) (floor : Option Stage) (rising : Bool) :
    r.stage.code ≤ (r.floored e floor rising).stage.code
      ∧ (rising = true → ∀ f, floor = some f → f.code ≤ (r.floored e floor rising).stage.code) := by
  unfold Station.floored
  cases floor with
  | none => exact ⟨Nat.le_refl _, fun _ f h => nomatch h⟩
  | some f =>
    simp only
    split
    · next h =>
      have hlt := of_decide_eq_true (Bool.and_eq_true_iff.mp h).2
      exact ⟨Nat.le_of_lt hlt, fun _ g hg => by cases hg; exact Nat.le_refl _⟩
    · next h =>
      refine ⟨Nat.le_refl _, fun hr g hg => ?_⟩
      cases hg
      rw [hr, Bool.true_and, decide_eq_true_eq] at h
      exact Nat.le_of_not_lt h

theorem setMark_markAt (r : Station) (i j : Fin 2) (m : MarkRec) :
    (r.setMark i m).markAt j = if j = i then m else r.markAt j := by
  match i, j with
  | 0, 0 => rfl
  | 0, 1 => rfl
  | 1, 0 => rfl
  | 1, 1 => rfl

theorem setMark_measures (r : Station) (i : Fin 2) (m : MarkRec) : (r.setMark i m).measures = r.measures := by
  unfold Station.setMark
  split <;> rfl

theorem setMark_stage (r : Station) (i : Fin 2) (m : MarkRec) : (r.setMark i m).stage = r.stage := by
  unfold Station.setMark
  split <;> rfl

theorem judged_of_none {r : Station} {e : StationEntry} {prev : Option Nat} {level : Nat} {now : PlantTime} {i : Fin 2}
    (h : crossing (e.markAt i) prev level = none) : r.judged e prev level now i = r := by
  unfold Station.judged
  rw [h]

theorem judged_of_crossing {r : Station} {e : StationEntry} {prev : Option Nat} {level : Nat} {now : PlantTime} {i : Fin 2} {rising : Bool}
    (h : crossing (e.markAt i) prev level = some rising) : r.judged e prev level now i = r.captured e i rising level now := by
  unfold Station.judged
  rw [h]

theorem judged_measures (r : Station) (e : StationEntry) (prev : Option Nat) (level : Nat) (now : PlantTime) (i : Fin 2) :
    (r.judged e prev level now i).measures = r.measures := by
  cases h : crossing (e.markAt i) prev level with
  | none => rw [judged_of_none h]
  | some rising =>
    rw [judged_of_crossing h]
    exact (floored_measures ..).trans (setMark_measures ..)

theorem judged_stage (r : Station) (e : StationEntry) (prev : Option Nat) (level : Nat) (now : PlantTime) (i : Fin 2) :
    r.stage.code ≤ (r.judged e prev level now i).stage.code := by
  cases h : crossing (e.markAt i) prev level with
  | none => rw [judged_of_none h]
  | some rising =>
    rw [judged_of_crossing h]
    have := (floored_stage (r.setMark i (r.captureOf i rising level now)) e (e.markAt i).floor rising).1
    rwa [setMark_stage] at this

theorem judged_markAt (r : Station) (e : StationEntry) (prev : Option Nat) (level : Nat) (now : PlantTime) (i j : Fin 2) :
    (r.judged e prev level now i).markAt j = if j = i then
      (crossing (e.markAt i) prev level).elim (r.markAt i) fun rising => r.captureOf i rising level now else r.markAt j := by
  cases h : crossing (e.markAt i) prev level with
  | none =>
    rw [judged_of_none h]
    split
    · next he => rw [he]; rfl
    · rfl
  | some rising =>
    rw [judged_of_crossing h]
    exact (floored_markAt ..).trans (setMark_markAt ..)

theorem afterHeadwater_measures (r : Station) (e : StationEntry) (level : Nat) (q : Quality) (now : PlantTime) :
    (r.afterHeadwater e level q now).measures = (GaugeRec.fresh level, some q, storageOf e level, true) :=
  (judged_measures ..).trans (judged_measures ..)

/-- Each mark is judged once. -/
theorem afterHeadwater_markAt (r : Station) (e : StationEntry) (level : Nat) (q : Quality) (now : PlantTime) (i : Fin 2) :
    (r.afterHeadwater e level q now).markAt i
      = (crossing (e.markAt i) r.hw.level level).elim (r.markAt i) fun rising => r.captureOf i rising level now := by
  unfold Station.afterHeadwater
  match i with
  | 0 =>
    rw [judged_markAt, if_neg (by decide), judged_markAt, if_pos rfl]
    rfl
  | 1 =>
    rw [judged_markAt, if_pos rfl]
    unfold Station.captureOf
    rw [judged_markAt, if_neg (by decide)]
    rfl

theorem afterHeadwater_of_unheld {r : Station} (h : r.hw.level = none) (e : StationEntry) (level : Nat) (q : Quality)
    (now : PlantTime) : r.afterHeadwater e level q now = r.heard e level q := by
  unfold Station.afterHeadwater
  rw [h, judged_of_none rfl, judged_of_none rfl]

/-- A counted rising crossing raises the stage at least to the mark's floor (R58). -/
theorem afterHeadwater_floor {r : Station} {e : StationEntry} {level : Nat} {i : Fin 2} {f : Stage}
    (h : crossing (e.markAt i) r.hw.level level = some true) (hf : (e.markAt i).floor = some f) (q : Quality) (now : PlantTime) :
    f.code ≤ (r.afterHeadwater e level q now).stage.code := by
  unfold Station.afterHeadwater
  match i with
  | 0 =>
    refine Nat.le_trans ?_ (judged_stage ..)
    rw [judged_of_crossing h]
    exact (floored_stage _ e _ true).2 rfl f hf
  | 1 =>
    rw [judged_of_crossing h]
    exact (floored_stage _ e _ true).2 rfl f hf

/-! ### A headwater frame -/

theorem forwardUp_own (s : State) (f : LineFrame) : (s.forwardUp f).portD.own = s.portD.own := by
  unfold State.forwardUp
  split <;> rfl

/-- The frame's level, quality and storage written, with GAUGE_FRESH, before the marks are judged (R43). -/
def State.gaugeHeard (s : State) (k : StationId) (gauge level : Nat) (q : Quality) : State :=
  let u := s.setStation k { s.station k with hw := GaugeRec.fresh level, hwQuality := some q }
  let v := if (s.station k).hw.stale then u.notify .gaugeFresh (.station k.1) (packDetail 0 (gauge * 16 + q.code)) level else u
  v.setStation k { v.station k with storage := storageOf (v.stationEntry k) level, storageValid := true }

/-- Both marks judged, before the gangs of the station take their event. -/
def State.gaugeJudged (s : State) (k : StationId) (gauge level : Nat) (q : Quality) : State :=
  ((s.gaugeHeard k gauge level q).judgeMark k (s.station k).hw.level level 0).judgeMark k (s.station k).hw.level level 1

theorem takeHeadwater_eq (s : State) (k : StationId) (gauge level : Nat) (q : Quality) :
    s.takeHeadwater k gauge level q = (s.gaugeJudged k gauge level q).surchargeReviews k (s.station k).stage := rfl

section heard

variable (s : State) (k : StationId) (gauge level : Nat) (q : Quality)

theorem gaugeHeard_sameBut : SameBut [.stations, .portD, .report] s (s.gaugeHeard k gauge level q) := by
  unfold State.gaugeHeard
  simp only
  split
  · exact (((setStation_sameBut _ _ _).mono (by decide)).trans ((notify_sameBut _ _ _ _ _).mono (by decide))).trans
      ((setStation_sameBut _ _ _).mono (by decide))
  · exact ((setStation_sameBut _ _ _).mono (by decide)).trans ((setStation_sameBut _ _ _).mono (by decide))

theorem gaugeHeard_station (j : StationId) : (s.gaugeHeard k gauge level q).station j
    = if j = k then (s.station k).heard (s.stationEntry k) level q else s.station j := by
  have hentry : ∀ kind subject d v, ((s.setStation k { s.station k with hw := GaugeRec.fresh level, hwQuality := some q }).notify
      kind subject d v).stationEntry k = s.stationEntry k := fun kind subject d v =>
    stationEntry_of_sameBut (by decide) (notify_sameBut (s.setStation k _) kind subject d v)
  unfold State.gaugeHeard
  simp only
  split
  · rw [station_setStation, station_notify, station_setStation_self, station_notify, hentry]
    split
    · rfl
    · next hj => rw [station_setStation_ne _ _ hj]
  · rw [station_setStation, station_setStation_self]
    split
    · rfl
    · next hj => rw [station_setStation_ne _ _ hj]

theorem gaugeHeard_own_length : (s.gaugeHeard k gauge level q).portD.own.length ≤ s.portD.own.length + 1
    ∧ (s.gaugeHeard k gauge level q).portD.reserved = s.portD.reserved := by
  unfold State.gaugeHeard
  simp only
  split
  · exact notify_own_length (s.setStation k _) _ _ _ _
  · exact ⟨Nat.le_succ _, rfl⟩

/-- GAUGE_FRESH is the first notice of the event. -/
theorem gaugeHeard_own (hs : (s.station k).hw.stale = true) (hroom : s.ownRoom = true) :
    (s.gaugeHeard k gauge level q).portD.own = s.portD.own ++ [.notice ⟨.gaugeFresh, .station k.1, s.now,
      packDetail 0 (gauge * 16 + q.code), level, s.report.gapMark⟩] := by
  unfold State.gaugeHeard
  simp only
  rw [if_pos hs]
  exact notify_own (s.setStation k _) _ _ _ _ hroom

/-- No notice but GAUGE_FRESH is handed on before the marks are judged. -/
theorem gaugeHeard_notices {n : Notice} (h : OwnFrame.notice n ∈ (s.gaugeHeard k gauge level q).portD.own)
    (hn : n.kind ≠ .gaugeFresh) : OwnFrame.notice n ∈ s.portD.own := by
  unfold State.gaugeHeard at h
  simp only at h
  split at h
  · cases hroom : (s.setStation k { s.station k with hw := GaugeRec.fresh level, hwQuality := some q }).ownRoom with
    | false =>
      unfold State.notify at h
      rw [hroom] at h
      exact h
    | true =>
      have hmem : OwnFrame.notice n ∈ s.portD.own ++ [_] := (notify_own _ _ _ _ _ hroom) ▸ h
      rcases List.mem_append.mp hmem with h | h
      · exact h
      · rw [List.mem_singleton] at h
        cases h
        exact absurd rfl hn
  · exact h

theorem gaugeJudged_sameBut : SameBut [.stations, .portD, .report] s (s.gaugeJudged k gauge level q) :=
  ((gaugeHeard_sameBut _ _ _ _ _).trans (judgeMark_sameBut _ _ _ _ _)).trans (judgeMark_sameBut _ _ _ _ _)

theorem gaugeHeard_entry : (s.gaugeHeard k gauge level q).stationEntry k = s.stationEntry k :=
  stationEntry_of_sameBut (by decide) (gaugeHeard_sameBut s k gauge level q)

theorem gaugeHeard_now : (s.gaugeHeard k gauge level q).now = s.now :=
  congrArg Clock.plantTime (gaugeHeard_sameBut s k gauge level q .clock (by decide)).1

/-- The state after the first mark. -/
theorem judgeFirst_entry : ((s.gaugeHeard k gauge level q).judgeMark k (s.station k).hw.level level 0).stationEntry k
    = s.stationEntry k :=
  (stationEntry_of_sameBut (by decide) (judgeMark_sameBut (s.gaugeHeard k gauge level q) k _ level 0)).trans
    (gaugeHeard_entry ..)

theorem judgeFirst_now : ((s.gaugeHeard k gauge level q).judgeMark k (s.station k).hw.level level 0).now = s.now :=
  (congrArg Clock.plantTime (judgeMark_sameBut (s.gaugeHeard k gauge level q) k _ level 0 .clock (by decide)).1).trans
    (gaugeHeard_now ..)

theorem gaugeJudged_station (j : StationId) : (s.gaugeJudged k gauge level q).station j
    = if j = k then (s.station k).afterHeadwater (s.stationEntry k) level q s.now else s.station j := by
  unfold State.gaugeJudged
  rw [judgeMark_station, judgeFirst_entry, judgeFirst_now, judgeMark_station, if_pos rfl, judgeMark_station, gaugeHeard_entry,
    gaugeHeard_now, gaugeHeard_station, if_pos rfl, gaugeHeard_station]
  by_cases hj : j = k
  · rw [if_pos hj, if_pos hj]
    rfl
  · rw [if_neg hj, if_neg hj, if_neg hj, if_neg hj]

/-- Where four places are free, each counted crossing hands on its notice. -/
theorem gaugeJudged_notice {i : Fin 2} {rising : Bool}
    (h : crossing ((s.stationEntry k).markAt i) (s.station k).hw.level level = some rising)
    (hroom : s.portD.own.length + s.portD.reserved + 4 ≤ 32) : ∃ gap, OwnFrame.notice ⟨.markCrossed, .station k.1, s.now,
        packDetail i.1 (crossingCode rising * 16 + ((s.station k).captureOf i rising level s.now).overwrite.toNat), level, gap⟩
      ∈ (s.gaugeJudged k gauge level q).portD.own := by
  have hone := gaugeHeard_own_length s k gauge level q
  have hfirst := judgeMark_own_length (s.gaugeHeard k gauge level q) k (s.station k).hw.level level 0
  have hplace : ∀ {u : State}, u.portD.own.length < 32 - s.portD.reserved → u.portD.reserved = s.portD.reserved →
      u.ownRoom = true := fun hl hr => decide_eq_true (by rw [hr]; show _ < 32; omega)
  match i, h with
  | 0, h =>
    have hnote := captureCrossing_notice (s := s.gaugeHeard k gauge level q) (hplace (by omega) hone.2) k 0 rising level
    rw [← judgeMark_of_crossing (prev := (s.station k).hw.level) (by rw [gaugeHeard_entry]; exact h), gaugeHeard_now] at hnote
    have hkeep := ((keeps_own _).judgeMark (s := (s.gaugeHeard k gauge level q).judgeMark k (s.station k).hw.level level 0)
      k (s.station k).hw.level level 1 (List.prefix_refl _)).subset hnote
    unfold Station.captureOf at hkeep
    rw [gaugeHeard_station, if_pos rfl] at hkeep
    exact ⟨_, hkeep⟩
  | 1, h =>
    have hnote := captureCrossing_notice (s := (s.gaugeHeard k gauge level q).judgeMark k (s.station k).hw.level level 0)
      (hplace (by omega) (by rw [hfirst.2, hone.2])) k 1 rising level
    rw [← judgeMark_of_crossing (prev := (s.station k).hw.level) (by rw [judgeFirst_entry]; exact h), judgeFirst_now] at hnote
    unfold Station.captureOf at hnote
    rw [judgeMark_station, if_pos rfl, judged_markAt, if_neg (by decide), gaugeHeard_station, if_pos rfl] at hnote
    exact ⟨_, hnote⟩

end heard

/-! ### The frame's whole effect -/

theorem receiveGauge_fits {s : State} {dest : Byte} {p : List Byte} (hl : p.length ≤ 56) :
    s.receiveGauge dest p
      = ((s.countF PortCounts.addReceived).tapGauge p).forwardUp { dest := dest, typ := typGauge, payload := p } :=
  if_pos (decide_eq_true hl)

theorem tapGauge_gauge {s : State} {p : List Byte} (hl : p.length = 4) (hg : byteAt p 0 ≤ 15) :
    s.tapGauge p = s.takeGauge (byteAt p 0) (fieldAt p 1 2) (byteAt p 3) := by
  unfold State.tapGauge
  rw [if_pos (show p.length = gaugeLen from hl), if_pos hg]

theorem takeGauge_headwater {s : State} {g level y : Nat} {q : Quality} {k : StationId} (hq : readQuality y = some q)
    (hk : s.active.stationOfGauge .headwater g = some k) : s.takeGauge g level y = s.takeHeadwater k g level q := by
  unfold State.takeGauge
  rw [hq]
  simp only
  rw [hk]

theorem takeGauge_tailwater {s : State} {g level y : Nat} {q : Quality} {k : StationId} (hq : readQuality y = some q)
    (hn : s.active.stationOfGauge .headwater g = none) (hk : s.active.stationOfGauge .tailwater g = some k) :
    s.takeGauge g level y = s.takeTailwater k g level q := by
  unfold State.takeGauge
  rw [hq]
  simp only
  rw [hn]
  simp only
  rw [hk]

theorem takeGauge_bad {s : State} {g level y : Nat} (h : readQuality y = none) : s.takeGauge g level y = s := by
  unfold State.takeGauge
  rw [h]

theorem takeGauge_unnamed {s : State} {g level y : Nat} (hn : s.active.stationOfGauge .headwater g = none)
    (hk : s.active.stationOfGauge .tailwater g = none) : s.takeGauge g level y = s := by
  unfold State.takeGauge
  split
  · rfl
  · rw [hn]
    simp only
    rw [hk]

theorem surchargeReviews_sameBut (s : State) (k : StationId) (before : Stage) :
    SameBut [.chans, .gangs, .portF, .portD, .report] s (s.surchargeReviews k before) :=
  sameBut_of_quiet fun q => q.surchargeReviews ..

/-- What follows a headwater frame's judging: the gangs' event, the forward and the end of the event. -/
def State.gaugeTail (s : State) (k : StationId) (before : Stage) (f : LineFrame) : State :=
  ((s.surchargeReviews k before).forwardUp f).finish

theorem gaugeTail_sameBut (s : State) (k : StationId) (before : Stage) (f : LineFrame) :
    SameBut [.chans, .gangs, .portF, .portD, .report] s (s.gaugeTail k before f) :=
  ((surchargeReviews_sameBut _ _ _).trans ((forwardUp_sameBut _ _).mono (by decide))).trans ((finish_sameBut _).mono (by decide))

theorem gaugeTail_own {s : State} {l : List OwnFrame} (h : l <+: s.portD.own) (k : StationId) (before : Stage) (f : LineFrame) :
    l <+: (s.gaugeTail k before f).portD.own :=
  (keeps_own l).finish (by rw [forwardUp_own]; exact (keeps_own l).surchargeReviews k before h)

/-- From a quiet state a headwater frame writes its record, judges the marks, has the gangs take their event and goes on. -/
theorem exec_headwater {s : State} (hq : s.quiet) (dest : Byte) {p : List Byte} {q : Quality} {k : StationId}
    (hl : p.length = 4) (hg : byteAt p 0 ≤ 15) (hy : readQuality (byteAt p 3) = some q)
    (hk : s.active.stationOfGauge .headwater (byteAt p 0) = some k) : exec (.gauge dest p) s
      = .next (((s.countF PortCounts.addReceived).gaugeJudged k (byteAt p 0) (fieldAt p 1 2) q).gaugeTail k (s.station k).stage
          { dest := dest, typ := typGauge, payload := p }) := by
  have he : exec (.gauge dest p) s = .next (s.receiveGauge dest p).finish := event_of_quiet hq _
  rw [he, receiveGauge_fits (by omega), tapGauge_gauge hl hg,
    takeGauge_headwater (s := s.countF PortCounts.addReceived) hy hk, takeHeadwater_eq]
  rfl

theorem takeTailwater_settled {s : State} (h : s.settled) (k : StationId) (gauge level : Nat) (q : Quality) :
    (s.takeTailwater k gauge level q).settled := by
  have hset : ∀ r, (s.setStation k r).settled := fun r => h.of_same rfl rfl rfl rfl rfl
  unfold State.takeTailwater
  simp only
  split
  · exact notify_settled (hset _) ..
  · exact hset _

theorem takeTailwater_sameBut (s : State) (k : StationId) (gauge level : Nat) (q : Quality) :
    SameBut [.stations, .portD, .report] s (s.takeTailwater k gauge level q) := by
  unfold State.takeTailwater
  simp only
  split
  · exact ((setStation_sameBut _ _ _).mono (by decide)).trans ((notify_sameBut _ _ _ _ _).mono (by decide))
  · exact (setStation_sameBut _ _ _).mono (by decide)

theorem takeTailwater_station (s : State) (k : StationId) (gauge level : Nat) (q : Quality) (j : StationId) :
    (s.takeTailwater k gauge level q).station j
      = if j = k then { s.station k with tw := GaugeRec.fresh level } else s.station j := by
  unfold State.takeTailwater
  simp only
  split
  · rw [station_notify, station_setStation]
  · rw [station_setStation]

/-- A state behind a headwater frame: the record, the line and the rest. -/
theorem gaugeTail_station (s : State) (k : StationId) (before : Stage) (f : LineFrame) (j : StationId) :
    (s.gaugeTail k before f).station j = s.station j :=
  congrArg (fun x => Tab.get x j) (gaugeTail_sameBut s k before f .stations (by decide))

theorem gaugeTail_portF (s : State) (k : StationId) (before : Stage) (f : LineFrame) :
    (s.gaugeTail k before f).portF.counts = s.portF.counts := by
  unfold State.gaugeTail
  rw [finish_portF]
  exact (congrArg PortF.counts (forwardUp_sameBut (s.surchargeReviews k before) f .portF (by decide))).trans
    (congrArg (fun x => x.2.2) (quiet_portF.surchargeReviews s k before))

/-- Settles O29: by the length, the quality and the station that names the gauge. -/
theorem gaugeFrameUpdatesItsRecord : Obligations.GaugeFrameUpdatesItsRecord := by
  intro s dest p hq
  have hset := countF_settled hq.1.1 PortCounts.addReceived
  have hplain : ∀ {u : State}, p.length ≤ 56 → (s.countF PortCounts.addReceived).tapGauge p = u → u.settled →
      exec (.gauge dest p) s = .next (u.forwardUp { dest := dest, typ := typGauge, payload := p }) := fun hl he hu =>
    event_eq hq ((receiveGauge_fits hl).trans (by rw [he])) (forwardUp_settled hu _)
  refine ⟨fun q k hl hg hy => ⟨fun hk => ?_, fun hn hk => ?_⟩, fun hl h => hplain (by omega) ?_ hset,
    fun hl h56 => hplain h56 (if_neg hl) (countF_settled hset _),
    fun h56 => event_eq hq (if_neg (by rw [payloadFits_eq, decide_eq_false (Nat.not_le.mpr h56)]; decide))
      (countF_settled hq.1.1 _)⟩
  · have hD := calm_portD.takeHeadwater (s.countF PortCounts.addReceived) k (byteAt p 0) (fieldAt p 1 2) q
    rw [takeHeadwater_eq] at hD
    have hfwd := forwardUp_counts (s := s) (congrArg (fun x => x.1) hD) (congrArg (fun x => x.2.2.2.2) hD)
      { dest := dest, typ := typGauge, payload := p }
    have hjudged := gaugeJudged_sameBut (s.countF PortCounts.addReceived) k (byteAt p 0) (fieldAt p 1 2) q
    have hstation : ∀ j, (((s.countF PortCounts.addReceived).gaugeJudged k (byteAt p 0) (fieldAt p 1 2) q).gaugeTail k
        (s.station k).stage { dest := dest, typ := typGauge, payload := p }).station j
        = if j = k then (s.station k).afterHeadwater (s.stationEntry k) (fieldAt p 1 2) q s.now else s.station j := fun j =>
      (gaugeTail_station ..).trans (gaugeJudged_station ..)
    have hmeas := afterHeadwater_measures (s.station k) (s.stationEntry k) (fieldAt p 1 2) q s.now
    rw [← (hstation k).trans (if_pos rfl)] at hmeas
    simp only [Station.measures, Prod.mk.injEq] at hmeas
    obtain ⟨hhw, hquality, hstorage, hvalid⟩ := hmeas
    refine ⟨_, exec_headwater hq dest hl hg hy hk, hhw, hquality, hstorage, hvalid, fun hs hroom => ?_,
      fun j hj => (hstation j).trans (if_neg hj), ?_, ?_, ?_, ?_⟩
    · have hfresh : _ <+: ((s.countF PortCounts.addReceived).gaugeJudged k (byteAt p 0) (fieldAt p 1 2) q).portD.own :=
        (keeps_own _).judgeMark _ _ _ _ ((keeps_own _).judgeMark _ _ _ _ (List.prefix_refl _))
      rw [gaugeHeard_own (s.countF PortCounts.addReceived) _ _ _ _ hs hroom] at hfresh
      exact (gaugeTail_own hfresh _ _ _).subset (List.mem_append_right _ (List.mem_singleton_self _))
    · rw [gaugeTail_portF]
      exact congrArg PortF.counts (hjudged .portF (by decide))
    · unfold State.gaugeTail
      rw [finish_portD]
      exact hfwd.1
    · unfold State.gaugeTail
      rw [finish_portD]
      exact hfwd.2
    · exact (((countF_sameBut s _).mono (by decide)).trans (hjudged.mono (by decide))).trans
        ((gaugeTail_sameBut _ _ _ _).mono (by decide))
  · have htap : (s.countF PortCounts.addReceived).tapGauge p
        = (s.countF PortCounts.addReceived).takeTailwater k (byteAt p 0) (fieldAt p 1 2) q :=
      (tapGauge_gauge hl hg).trans (takeGauge_tailwater hy hn hk)
    have hsame := takeTailwater_sameBut (s.countF PortCounts.addReceived) k (byteAt p 0) (fieldAt p 1 2) q
    have hrec := takeTailwater_station (s.countF PortCounts.addReceived) k (byteAt p 0) (fieldAt p 1 2) q
    have hD := calm_portD.takeTailwater (s.countF PortCounts.addReceived) k (byteAt p 0) (fieldAt p 1 2) q
    obtain ⟨hroom, hfull⟩ := forwardUp_counts (s := s) (congrArg (fun x => x.1) hD) (congrArg (fun x => x.2.2.2.2) hD)
      { dest := dest, typ := typGauge, payload := p }
    have hup := forwardUp_sameBut ((s.countF PortCounts.addReceived).takeTailwater k (byteAt p 0) (fieldAt p 1 2) q)
      { dest := dest, typ := typGauge, payload := p }
    have hall : ∀ j, (((s.countF PortCounts.addReceived).takeTailwater k (byteAt p 0) (fieldAt p 1 2) q).forwardUp
        { dest := dest, typ := typGauge, payload := p }).station j = _ := fun j =>
      (congrArg (fun x => Tab.get x j) (hup .stations (by decide))).trans (hrec j)
    refine ⟨_, hplain (by omega) htap (takeTailwater_settled hset ..), (hall k).trans (if_pos rfl), fun hs hr => ?_, fun hs => ?_,
      fun j hj => (hall j).trans (if_neg hj), (hup .portF (by decide)).trans (hsame .portF (by decide)), hroom, hfull,
      (((countF_sameBut s _).mono (by decide)).trans (hsame.mono (by decide))).trans (hup.mono (by decide))⟩
    · rw [forwardUp_own]
      unfold State.takeTailwater
      simp only
      rw [if_pos (show ((s.countF PortCounts.addReceived).station k).tw.stale = true from hs)]
      rw [notify_own (s := (s.countF PortCounts.addReceived).setStation k _) _ _ _ _ hr]
      exact List.mem_append_right _ (List.mem_singleton_self _)
    · rw [forwardUp_own]
      unfold State.takeTailwater
      simp only
      rw [if_neg (show ¬ ((s.countF PortCounts.addReceived).station k).tw.stale = true by
        rw [show ((s.countF PortCounts.addReceived).station k).tw.stale = false from hs]; decide)]
      rfl
  · unfold State.tapGauge
    rw [if_pos (show p.length = gaugeLen from hl)]
    split
    · next hg =>
      rcases h with h | h | ⟨hn, hk⟩
      · exact takeGauge_bad h
      · omega
      · exact takeGauge_unnamed hn hk
    · rfl

/-! ### Crossings -/

theorem crossing_rises {m : MarkEntry} {prev level : Nat} (hp : m.isPresent = true) (hc : m.countsRising = true)
    (h : prev < m.level ∧ m.level ≤ level) : crossing m (some prev) level = some true := by
  unfold crossing risesPast
  simp only
  rw [if_pos (by rw [hp, hc, decide_eq_true h.1, decide_eq_true h.2]; rfl)]

theorem crossing_falls {m : MarkEntry} {prev level : Nat} (hp : m.isPresent = true) (hc : m.countsFalling = true)
    (h : m.level ≤ prev ∧ level < m.level) : crossing m (some prev) level = some false := by
  unfold crossing risesPast fallsPast
  simp only
  rw [if_neg (by rw [decide_eq_false (Nat.not_lt.mpr h.1), Bool.false_and, Bool.and_false]; decide),
    if_pos (by rw [hp, hc, decide_eq_true h.1, decide_eq_true h.2]; rfl)]

theorem crossing_none {m : MarkEntry} {prev level : Nat} (h : m.isPresent = false
    ∨ (m.countsRising = false ∧ (prev < m.level ∧ m.level ≤ level)) ∨ (m.countsFalling = false ∧ (m.level ≤ prev ∧ level < m.level))
    ∨ (¬ (prev < m.level ∧ m.level ≤ level) ∧ ¬ (m.level ≤ prev ∧ level < m.level))) : crossing m (some prev) level = none := by
  unfold crossing risesPast fallsPast
  simp only [Bool.and_eq_true, decide_eq_true_eq]
  rcases h with h | ⟨hc, h1, h2⟩ | ⟨hc, h1, h2⟩ | ⟨hr, hf⟩
  · rw [h]
    rfl
  · rw [hc, if_neg (by simp), if_neg (by omega)]
  · rw [hc, if_neg (by omega), if_neg (by simp)]
  · rw [if_neg fun h => hr h.2, if_neg fun h => hf h.2]

/-- Settles O30: the record after a headwater frame holds each mark judged once, and notices stay in UP_OWN. -/
theorem crossingsAreCaptured : Obligations.CrossingsAreCaptured := by
  intro s dest p q k i level hq hl hg hy hk hlevel
  subst hlevel
  have hstation : (((s.countF PortCounts.addReceived).gaugeJudged k (byteAt p 0) (fieldAt p 1 2) q).gaugeTail k
      (s.station k).stage { dest := dest, typ := typGauge, payload := p }).station k
      = (s.station k).afterHeadwater (s.stationEntry k) (fieldAt p 1 2) q s.now :=
    ((gaugeTail_station ..).trans (gaugeJudged_station ..)).trans (if_pos rfl)
  have hmark := afterHeadwater_markAt (s.station k) (s.stationEntry k) (fieldAt p 1 2) q s.now i
  rw [← hstation] at hmark
  have hnote : ∀ rising, crossing ((s.stationEntry k).markAt i) (s.station k).hw.level (fieldAt p 1 2) = some rising →
      s.portD.own.length + s.portD.reserved + 4 ≤ 32 → ∃ gap, OwnFrame.notice ⟨.markCrossed, .station k.1, s.now,
        packDetail i.1 (crossingCode rising * 16 + ((s.station k).captureOf i rising (fieldAt p 1 2) s.now).overwrite.toNat),
        fieldAt p 1 2, gap⟩ ∈ (((s.countF PortCounts.addReceived).gaugeJudged k (byteAt p 0) (fieldAt p 1 2) q).gaugeTail k
      (s.station k).stage { dest := dest, typ := typGauge, payload := p }).portD.own := fun rising hc hroom => by
    obtain ⟨gap, hmem⟩ := gaugeJudged_notice (s.countF PortCounts.addReceived) k (byteAt p 0) (fieldAt p 1 2) q hc hroom
    exact ⟨gap, (gaugeTail_own (List.prefix_refl _) _ _ _).subset hmem⟩
  refine ⟨_, exec_headwater hq dest hl hg hy hk, fun prev hprev => ⟨fun hp hc h => ?_, fun hp hc h => ?_, fun h => ?_⟩, fun hn => ?_⟩
  · have hcross := crossing_rises hp hc h
    rw [hprev, hcross] at hmark
    rw [hprev] at hnote
    refine ⟨hmark, fun f hf => ?_, hnote true hcross⟩
    rw [hstation]
    exact afterHeadwater_floor (by rw [hprev]; exact hcross) hf q s.now
  · have hcross := crossing_falls hp hc h
    rw [hprev, hcross] at hmark
    rw [hprev] at hnote
    exact ⟨hmark, hnote false hcross⟩
  · rw [hprev, crossing_none h] at hmark
    exact hmark
  · have hafter := afterHeadwater_of_unheld hn (s.stationEntry k) (fieldAt p 1 2) q s.now
    rw [hn] at hmark
    refine ⟨hmark, by rw [hstation, hafter]; rfl, fun n hmem hkind => ?_⟩
    have hjudged : (s.countF PortCounts.addReceived).gaugeJudged k (byteAt p 0) (fieldAt p 1 2) q
        = (s.countF PortCounts.addReceived).gaugeHeard k (byteAt p 0) (fieldAt p 1 2) q := by
      unfold State.gaugeJudged
      rw [show ((s.countF PortCounts.addReceived).station k).hw.level = none from hn, judgeMark_of_none rfl, judgeMark_of_none rfl]
    have hstage : (((s.countF PortCounts.addReceived).gaugeHeard k (byteAt p 0) (fieldAt p 1 2) q).station k).stage
        = (s.station k).stage := by
      rw [gaugeHeard_station, if_pos rfl]
      rfl
    have hcalm : ((s.countF PortCounts.addReceived).gaugeHeard k (byteAt p 0) (fieldAt p 1 2) q).surchargeReviews k
        (s.station k).stage = (s.countF PortCounts.addReceived).gaugeHeard k (byteAt p 0) (fieldAt p 1 2) q := by
      refine if_neg ?_
      rw [hstage, bne_self_eq_false]
      decide
    unfold State.gaugeTail at hmem
    rw [hjudged, hcalm, finish_portD, forwardUp_own] at hmem
    exact gaugeHeard_notices (s.countF PortCounts.addReceived) k (byteAt p 0) (fieldAt p 1 2) q hmem (by rw [hkind]; decide)

end Sys2Proof.Machine
end

section
/-! A station returns to level 0: KEEPALIVE and RESUME_STATION (R118, R119, R122, R123). -/

namespace Sys2Proof.Machine

/-! ### What a channel is asked for -/

/-- The governed target, source and clamp mark of every channel: what no move of a channel changes. -/
def State.requests (s : State) : Gate → Option Nat × Source × ClampMark := fun g =>
  ((s.chan g).governed, (s.chan g).source, (s.chan g).clamp)

theorem requests_setChan (s : State) (g : Gate) (c : Channel) (h : Gate) :
    (s.setChan g c).requests h = if h = g then (c.governed, c.source, c.clamp) else s.requests h := by
  unfold State.requests
  rw [chan_setChan]
  split <;> rfl

/-- A write that keeps a channel's request keeps them all. -/
theorem requests_setChan_same {s : State} {g : Gate} {c : Channel} (hg : c.governed = (s.chan g).governed)
    (hs : c.source = (s.chan g).source) (hm : c.clamp = (s.chan g).clamp) : (s.setChan g c).requests = s.requests := by
  funext h
  rw [requests_setChan]
  split
  · next he =>
    subst he
    unfold State.requests
    rw [hg, hs, hm]
  · rfl

theorem blind_requests : Blind State.requests where
  move _ _ _ _ _ _ _ := requests_setChan_same rfl rfl rfl
  gang _ _ _ := rfl
  portF _ _ _ _ _ := rfl
  report _ _ := rfl
  own _ _ := rfl

/-! ### Channels the silence does not stop -/

/-- A channel that neither stands in the silence hold nor is marked for it, and whose station is at level 0. -/
def State.unsilenced (s : State) (g : Gate) : Prop :=
  (s.chan g).state ≠ .hold .silence ∧ (s.chan g).silencePending = false ∧ s.afterGangHold g = .idle

theorem afterGangHold_of_same {s t : State} (hs : t.store = s.store) (hl : t.silence = s.silence) (g : Gate) :
    t.afterGangHold g = s.afterGangHold g := by
  unfold State.afterGangHold State.silenceLevelOf State.silenceOf State.gateEntry State.active
  rw [hs, hl]

/-- Entering a state other than the silence hold keeps every channel unsilenced. -/
theorem unsilenced_enter {s : State} {g h : Gate} {st : ChanState} (hne : st ≠ .hold .silence) (hs : s.unsilenced g) :
    (s.enter h st).unsilenced g := by
  obtain ⟨hstate, hpend, hafter⟩ := hs
  refine ⟨?_, ?_, ?_⟩
  · rw [enter_chan]
    split
    · exact hne
    · exact hstate
  · rw [enter_chan]
    split
    · next he =>
      subst he
      show ((s.chan g).silencePending && st.isStep) = false
      rw [hpend, Bool.false_and]
    · exact hpend
  · rw [afterGangHold_of_same (enter_sameBut s h st .store (by decide)) (enter_sameBut s h st .silence (by decide))]
    exact hafter

/-- The gang machinery silences no channel of a station at level 0. -/
theorem turns_unsilenced (g : Gate) : Turns fun s => s.unsilenced g where
  gang _ _ _ h := h
  waits _ _ _ h := h
  notice s kind subject d v h := by
    have hchan : (s.notify kind subject d v).chan g = s.chan g := congrArg (fun c => Tab.get c g) (notify_chans ..)
    refine ⟨by rw [hchan]; exact h.1, by rw [hchan]; exact h.2.1, ?_⟩
    rw [afterGangHold_of_same (notify_sameBut _ _ _ _ _ .store (by decide)) (notify_sameBut _ _ _ _ _ .silence (by decide))]
    exact h.2.2
  start s i target hw hm hr h := by
    obtain ⟨hstate, hpend, hafter⟩ := h
    have hsame := startIncrement_sameBut s i target (s.queueFor i)
    refine ⟨?_, ?_, ?_⟩
    · rw [startIncrement_chan]
      split
      · nofun
      · exact hstate
    · rw [startIncrement_chan]
      split
      · next he => subst he; exact hpend
      · exact hpend
    · rw [afterGangHold_of_same (hsame .store (by decide)) (hsame .silence (by decide))]
      exact hafter
  hold s i _ h := unsilenced_enter nofun h
  wake s i _ h := unsilenced_enter nofun h
  free s i hi h := by
    by_cases hg : i = g
    · subst hg
      rw [h.2.2]
      exact unsilenced_enter nofun h
    · refine ⟨?_, ?_, ?_⟩
      · rw [enter_chan, if_neg (Ne.symm hg)]; exact h.1
      · rw [enter_chan, if_neg (Ne.symm hg)]; exact h.2.1
      · rw [afterGangHold_of_same (enter_sameBut _ _ _ .store (by decide)) (enter_sameBut _ _ _ .silence (by decide))]
        exact h.2.2

/-! ### The parts of a resumption -/

/-- The channels of the station out of their silence hold, its record at level 0 (R122). -/
def State.unheld (s : State) (k : StationId) (timer : Option Nat) : State :=
  forEach (s.silenceHeld k) (fun g s => s.leaveSilenceHold g) (s.setSilence k { level := .l0, timer := timer })

/-- The pending marks of the station cleared (R122). -/
def State.unmarked (s : State) (k : StationId) : State :=
  forEach (s.active.gatesOf k) (fun g s => s.setChan g { s.chan g with silencePending := false }) s

/-- The channels whose source turns from FALLBACK to DISPATCH (R122). -/
def State.turned (s : State) (k : StationId) (left : SilenceLevel) : List Gate := if left = .l2 then s.fallbackSourced k else []

/-- Those sources turned (R122). -/
def State.sourced (s : State) (k : StationId) (left : SilenceLevel) : State :=
  forEach (s.turned k left) (fun g s => s.setChan g { s.chan g with source := .dispatch }) s

theorem resumeStation_eq (s : State) (k : StationId) (timer : Option Nat) (cause : ResumeCause) :
    s.resumeStation k timer cause = (let u := (s.unheld k timer).unmarked k
      ((u.sourced k (s.silenceOf k).level).notify .silenceResume (.station k.1) (packDetail cause.code (s.silenceOf k).level.code)
        (packValue (s.silenceHeld k).length (u.turned k (s.silenceOf k).level).length))
      |> fun v => v.gangReviews .other (v.active.gangsOf k)) := rfl

/-- What is folded sets a property for one name and keeps it for every name. -/
theorem forEach_establishes {α : Type} {f : α → State → State} {P : State → Prop} {x : α} {xs : List α} (hx : x ∈ xs)
    (hset : ∀ s, P (f x s)) (hkeep : ∀ a s, P s → P (f a s)) (s : State) : P (forEach xs f s) := by
  induction xs generalizing s with
  | nil => exact absurd hx List.not_mem_nil
  | cons y ys ih =>
    rcases List.mem_cons.mp hx with rfl | hx
    · exact forEach_preserves hkeep ys (f x s) (hset s)
    · exact ih hx (f y s)

theorem forEach_sameBut {α : Type} {f : α → State → State} {ps : List Part} (h : ∀ a s, SameBut ps s (f a s)) (xs : List α)
    (s : State) : SameBut ps s (forEach xs f s) := by
  induction xs generalizing s with
  | nil => exact SameBut.refl _ _
  | cons x xs ih => exact (h x s).trans (ih (f x s))

theorem leaveSilenceHold_sameBut (s : State) (g : Gate) : SameBut [.chans, .portF, .report] s (s.leaveSilenceHold g) := by
  unfold State.leaveSilenceHold
  simp only
  split
  · exact ((enter_sameBut _ _ _).mono (by decide)).trans (judge_sameBut _ _)
  · exact (enter_sameBut _ _ _).mono (by decide)

theorem setSilence_sameBut (s : State) (k : StationId) (r : SilenceRec) : SameBut [.silence] s (s.setSilence k r) := by
  intro x hx
  cases x <;> first | exact ⟨rfl, rfl⟩ | rfl | simp at hx

/-- The silence record written, and the silence holds left. -/
theorem unheld_sameBut (s : State) (k : StationId) (timer : Option Nat) :
    SameBut [.chans, .portF, .report] (s.setSilence k { level := .l0, timer := timer }) (s.unheld k timer) :=
  forEach_sameBut (fun g s => leaveSilenceHold_sameBut s g) _ _

theorem unmarked_sameBut (s : State) (k : StationId) : SameBut [.chans] s (s.unmarked k) :=
  forEach_sameBut (fun _ _ => setChan_sameBut _ _ _) _ _

theorem sourced_sameBut (s : State) (k : StationId) (left : SilenceLevel) : SameBut [.chans] s (s.sourced k left) :=
  forEach_sameBut (fun _ _ => setChan_sameBut _ _ _) _ _

theorem active_of_sameBut {ps : List Part} {s t : State} (hp : Part.store ∉ ps) (h : SameBut ps s t) : t.active = s.active :=
  congrArg PlanStore.active (h .store hp)

theorem notify_active (s : State) (kind : NoticeKind) (subject : Subject) (d v : Nat) :
    (s.notify kind subject d v).active = s.active := active_of_sameBut (by decide) (notify_sameBut _ _ _ _ _)

/-- No bound channel of the station is left in the silence hold. -/
theorem unheld_state (s : State) {k : StationId} (timer : Option Nat) {g : Gate} (hg : s.active.boundTo k g = true) :
    ((s.unheld k timer).chan g).state ≠ .hold .silence := by
  have henter : ∀ (h : Gate) (u : State), ((u.leaveSilenceHold h).chan g).state ≠ .hold .silence
      ∨ ((u.chan g).state = .hold .silence ∧ h ≠ g) := by
    intro h u
    by_cases hstay : h ≠ g ∧ (u.chan g).state = .hold .silence
    · exact .inr ⟨hstay.2, hstay.1⟩
    · left
      have hidle : ((u.enter h .idle).chan g).state ≠ .hold .silence := by
        rw [enter_chan]
        split
        · nofun
        · next hne => exact fun he => hstay ⟨Ne.symm hne, he⟩
      unfold State.leaveSilenceHold
      simp only
      split
      · rcases judge_cases (u.enter h .idle) h with ⟨_, _, _, _, he⟩ | ⟨_, _, he⟩ <;> rw [he]
        · rw [startIncrement_chan]
          split
          · nofun
          · exact hidle
        · exact hidle
      · exact hidle
  have hkeep : ∀ (h : Gate) (u : State), (u.chan g).state ≠ .hold .silence →
      ((u.leaveSilenceHold h).chan g).state ≠ .hold .silence := fun h u hu => (henter h u).resolve_right fun hr => hu hr.1
  by_cases hs : (s.chan g).state = .hold .silence
  · have hmem : g ∈ s.silenceHeld k := List.mem_filter.mpr ⟨mem_gatesOf.mpr hg, beq_iff_eq.mpr hs⟩
    exact forEach_establishes (P := fun u => (u.chan g).state ≠ .hold .silence) hmem
      (fun u => (henter g u).resolve_right fun hr => hr.2 rfl) hkeep _
  · exact forEach_preserves (P := fun u => (u.chan g).state ≠ .hold .silence) hkeep _ _ hs

theorem unmarked_chan (s : State) (k : StationId) (g : Gate) : (s.unmarked k).chan g
    = if s.active.boundTo k g = true then { s.chan g with silencePending := false } else s.chan g := by
  obtain ⟨hin, hout⟩ := forEach_at State.chan (fun g s => s.setChan g { s.chan g with silencePending := false }) (fun _ => True)
    (fun _ c => { c with silencePending := false }) (fun _ _ _ => trivial) (fun _ _ _ => chan_setChan_self ..)
    (fun _ _ _ _ h => chan_setChan_ne _ _ h) (gatesOf_nodup s.active k) (s := s) trivial
  split
  · next h => exact hin g (mem_gatesOf.mpr h)
  · next h => exact hout g fun hm => h (mem_gatesOf.mp hm)

theorem mem_turned {s : State} {k : StationId} {left : SilenceLevel} {g : Gate} : g ∈ s.turned k left
    ↔ s.active.boundTo k g = true ∧ left = .l2 ∧ (s.chan g).source = .fallback := by
  unfold State.turned
  split
  · next h =>
    unfold State.fallbackSourced
    rw [List.mem_filter, mem_gatesOf, beq_iff_eq]
    simp [h]
  · next h => simp [h]

theorem turned_nodup (s : State) (k : StationId) (left : SilenceLevel) : (s.turned k left).Nodup := by
  unfold State.turned State.fallbackSourced
  split
  · exact (gatesOf_nodup _ _).filter _
  · exact List.nodup_nil

theorem sourced_chan (s : State) (k : StationId) (left : SilenceLevel) (g : Gate) : (s.sourced k left).chan g
    = if g ∈ s.turned k left then { s.chan g with source := .dispatch } else s.chan g := by
  obtain ⟨hin, hout⟩ := forEach_at State.chan (fun g s => s.setChan g { s.chan g with source := .dispatch }) (fun _ => True)
    (fun _ c => { c with source := .dispatch }) (fun _ _ _ => trivial) (fun _ _ _ => chan_setChan_self ..)
    (fun _ _ _ _ h => chan_setChan_ne _ _ h) (turned_nodup s k left) (s := s) trivial
  split
  · next h => exact hin g h
  · next h => exact hout g h

/-! ### What a resumption leaves -/

section resume

variable (s : State) (k : StationId) (timer : Option Nat) (cause : ResumeCause)

theorem unheld_requests : (s.unheld k timer).requests = s.requests :=
  (forEach_keeps (π := State.requests) (fun g u => blind_requests.leaveSilenceHold u g) _ _).trans rfl

theorem unheld_active : (s.unheld k timer).active = s.active :=
  (active_of_sameBut (by decide) (unheld_sameBut s k timer)).trans rfl

/-- The requests after a resumption: at a return from level 2 the sources FALLBACK are DISPATCH. -/
theorem resumeStation_requests (g : Gate) : (s.resumeStation k timer cause).requests g
    = ((s.chan g).governed, if s.active.boundTo k g = true ∧ (s.silenceOf k).level = .l2 ∧ (s.chan g).source = .fallback
        then .dispatch else (s.chan g).source, (s.chan g).clamp) := by
  have hheld := congrFun (unheld_requests s k timer) g
  have hmark : ((s.unheld k timer).unmarked k).requests g = s.requests g := by
    rw [← hheld]
    unfold State.requests
    rw [unmarked_chan]
    split <;> rfl
  have hsource : (((s.unheld k timer).unmarked k).chan g).source = (s.chan g).source := congrArg (fun x => x.2.1) hmark
  have hactive : ((s.unheld k timer).unmarked k).active = s.active :=
    (active_of_sameBut (by decide) (unmarked_sameBut _ k)).trans (unheld_active ..)
  rw [resumeStation_eq]
  simp only
  rw [blind_requests.gangReviews, blind_requests.notify]
  unfold State.requests at hmark ⊢
  rw [sourced_chan]
  simp only [Prod.mk.injEq] at hmark
  obtain ⟨hgov, _, hclamp⟩ := hmark
  by_cases hm : g ∈ ((s.unheld k timer).unmarked k).turned k (s.silenceOf k).level
  · rw [if_pos hm]
    rw [mem_turned, hactive, hsource] at hm
    rw [if_pos hm, ← hgov, ← hclamp]
  · rw [if_neg hm]
    rw [mem_turned, hactive, hsource] at hm
    rw [if_neg hm, ← hgov, ← hclamp, ← hsource]

/-- No bound channel of the station is silenced after a resumption. -/
theorem resumeStation_unsilenced {g : Gate} (hg : s.active.boundTo k g = true) :
    (s.resumeStation k timer cause).unsilenced g := by
  have hactive : ((s.unheld k timer).unmarked k).active = s.active :=
    (active_of_sameBut (by decide) (unmarked_sameBut _ k)).trans (unheld_active ..)
  have hmarked : ((s.unheld k timer).unmarked k).chan g = { (s.unheld k timer).chan g with silencePending := false } := by
    rw [unmarked_chan, unheld_active, if_pos hg]
  have hsourced : ((((s.unheld k timer).unmarked k).sourced k (s.silenceOf k).level).chan g).state
        = (((s.unheld k timer).unmarked k).chan g).state
      ∧ ((((s.unheld k timer).unmarked k).sourced k (s.silenceOf k).level).chan g).silencePending
        = (((s.unheld k timer).unmarked k).chan g).silencePending := by
    rw [sourced_chan]
    split <;> exact ⟨rfl, rfl⟩
  have hsame : SameBut [.chans, .portF, .report] (s.setSilence k { level := .l0, timer := timer })
      (((s.unheld k timer).unmarked k).sourced k (s.silenceOf k).level) :=
    ((unheld_sameBut s k timer).trans ((unmarked_sameBut _ _).mono (by decide))).trans ((sourced_sameBut _ _ _).mono (by decide))
  have hsilenced : (((s.unheld k timer).unmarked k).sourced k (s.silenceOf k).level).unsilenced g := by
    refine ⟨?_, ?_, ?_⟩
    · rw [hsourced.1, hmarked]
      exact unheld_state s timer hg
    · rw [hsourced.2, hmarked]
    · rw [afterGangHold_of_same (hsame .store (by decide)) (hsame .silence (by decide))]
      have hk : (s.gateEntry g).station? = some k := of_decide_eq_true (Bool.and_eq_true_iff.mp hg).2
      unfold State.afterGangHold State.silenceLevelOf
      rw [show ((s.setSilence k { level := .l0, timer := timer }).gateEntry g).station? = some k from hk]
      simp only
      rw [if_pos (by rw [silenceOf_setSilence_self])]
  rw [resumeStation_eq]
  exact (turns_unsilenced g).gangReviews _ _ ((turns_unsilenced g).notice _ _ _ _ _ hsilenced)

theorem resumeStation_silence :
    (s.resumeStation k timer cause).silence = (s.setSilence k { level := .l0, timer := timer }).silence := by
  have hsame : SameBut [.chans, .portF, .report] (s.setSilence k { level := .l0, timer := timer })
      (((s.unheld k timer).unmarked k).sourced k (s.silenceOf k).level) :=
    ((unheld_sameBut s k timer).trans ((unmarked_sameBut _ _).mono (by decide))).trans ((sourced_sameBut _ _ _).mono (by decide))
  rw [resumeStation_eq]
  simp only
  rw [quiet_silence.gangReviews, quiet_silence.notify]
  exact hsame .silence (by decide)

theorem resumeStation_sameBut :
    SameBut [.silence, .chans, .gangs, .portF, .portD, .report] s (s.resumeStation k timer cause) := by
  rw [resumeStation_eq]
  simp only
  refine SameBut.trans ?_ ((sameBut_of_quiet fun q => q.gangReviews _ _ _).mono (by decide))
  refine SameBut.trans ?_ ((notify_sameBut _ _ _ _ _).mono (by decide))
  exact ((((setSilence_sameBut _ _ _).mono (by decide)).trans ((unheld_sameBut s k timer).mono (by decide))).trans
    ((unmarked_sameBut _ _).mono (by decide))).trans ((sourced_sameBut _ _ _).mono (by decide))

end resume

/-! ### The notice of a resumption -/

theorem noteEnqueued_gapMark (s : State) (g : Gate) : (s.noteEnqueued g).report.gapMark = s.report.gapMark := by
  unfold State.noteEnqueued
  split
  · split <;> rfl
  · rfl

theorem enter_report (s : State) (g : Gate) (st : ChanState) : (s.enter g st).report = s.report :=
  enter_sameBut s g st .report (by decide)

theorem startIncrement_gapMark (s : State) (g : Gate) (target : Nat) (w : FieldQueue) :
    (s.startIncrement g target w).report.gapMark = s.report.gapMark := by
  unfold State.startIncrement
  simp only
  rw [noteEnqueued_gapMark]
  exact congrArg Report.gapMark (enter_report ..)

/-- No judging hands on a notice or marks a gap. -/
theorem judge_gapMark (s : State) (g : Gate) : (s.judge g).report.gapMark = s.report.gapMark := by
  rcases judge_cases s g with ⟨_, _, _, _, he⟩ | ⟨_, _, he⟩ <;> rw [he]
  · exact startIncrement_gapMark ..
  · rfl

theorem leaveSilenceHold_gapMark (s : State) (g : Gate) : (s.leaveSilenceHold g).report.gapMark = s.report.gapMark := by
  unfold State.leaveSilenceHold
  simp only
  split
  · rw [judge_gapMark, enter_report]
  · rw [enter_report]

/-- SILENCE_RESUME is the first notice of a resumption: it stands in UP_OWN behind whatever keeps the own frames placed. -/
theorem resumeStation_noticed_behind {s w t : State} {k : StationId} {timer : Option Nat} {cause : ResumeCause}
    (hD : w.portD.own = s.portD.own) (hres : w.portD.reserved = s.portD.reserved) (hgap : w.report.gapMark = s.report.gapMark)
    (hc : w.clock = s.clock) (hp : ∀ l, l <+: (w.resumeStation k timer cause).portD.own → l <+: t.portD.own) :
    Noticed s t .silenceResume (.station k.1) (packDetail cause.code (w.silenceOf k).level.code) (packValue (w.silenceHeld k).length
      (((w.unheld k timer).unmarked k).turned k (w.silenceOf k).level).length) := by
  have hsame : SameBut [.chans, .portF, .report] (w.setSilence k { level := .l0, timer := timer })
      (((w.unheld k timer).unmarked k).sourced k (w.silenceOf k).level) :=
    ((unheld_sameBut w k timer).trans ((unmarked_sameBut _ _).mono (by decide))).trans ((sourced_sameBut _ _ _).mono (by decide))
  have hline : (((w.unheld k timer).unmarked k).sourced k (w.silenceOf k).level).portD = w.portD := hsame .portD (by decide)
  have hmark : (((w.unheld k timer).unmarked k).sourced k (w.silenceOf k).level).report.gapMark = w.report.gapMark := by
    have hreport : (((w.unheld k timer).unmarked k).sourced k (w.silenceOf k).level).report = (w.unheld k timer).report :=
      (sourced_sameBut _ _ _ .report (by decide)).trans (unmarked_sameBut _ _ .report (by decide))
    rw [hreport]
    exact (forEach_keeps (π := fun u => u.report.gapMark) (fun g u => leaveSilenceHold_gapMark u g) _ _).trans rfl
  have hclock : (((w.unheld k timer).unmarked k).sourced k (w.silenceOf k).level).clock = w.clock := (hsame .clock (by decide)).1
  refine noticed_of_prefix (w := ((w.unheld k timer).unmarked k).sourced k (w.silenceOf k).level) (by rw [hline, hD])
    (by rw [hline, hres]) (hmark.trans hgap) (hclock.trans hc) fun l hl => hp l ?_
  rw [resumeStation_eq]
  simp only
  exact (keeps_own l).gangReviews _ _ hl

/-- The notice of a resumption that is the event's first operation. -/
theorem resumeStation_noticed {s w : State} {k : StationId} {timer : Option Nat} {cause : ResumeCause}
    (hw : SameBut [.portD] s w) (hD : w.portD.own = s.portD.own) (hres : w.portD.reserved = s.portD.reserved) :
    Noticed s (w.resumeStation k timer cause).finish .silenceResume (.station k.1)
      (packDetail cause.code (s.silenceOf k).level.code) (packValue (s.silenceHeld k).length
        (((w.unheld k timer).unmarked k).turned k (s.silenceOf k).level).length) := by
  have hlevel : w.silenceOf k = s.silenceOf k := congrArg (fun x => Tab.get x k) (hw .silence (by decide))
  have hheld : w.silenceHeld k = s.silenceHeld k := by
    unfold State.silenceHeld
    rw [active_of_sameBut (by decide) hw]
    have : w.chan = s.chan := funext fun g => congrArg (fun x => Tab.get x g) (hw .chans (by decide))
    rw [this]
  have hnote := resumeStation_noticed_behind (s := s) (w := w) (t := (w.resumeStation k timer cause).finish) (timer := timer)
    (cause := cause) hD hres (congrArg Report.gapMark (hw .report (by decide))) (hw .clock (by decide)).1
    fun l hl => (keeps_own l).finish hl
  rwa [hheld, hlevel] at hnote

theorem restartSilence_of_count {s : State} {k : StationId} (h : 0 < (s.stationEntry k).silenceCount)
    (hl : (s.silenceOf k).level = .l0) :
    s.restartSilence k = s.setSilence k { level := .l0, timer := some (s.stationEntry k).silencePeriod } := by
  unfold State.restartSilence restartedTimer
  rw [if_pos h]
  simp only
  rw [hl]

theorem restartSilence_of_none {s : State} {k : StationId} (h : (s.stationEntry k).silenceCount = 0) : s.restartSilence k = s := by
  unfold State.restartSilence restartedTimer
  rw [h, if_neg (by decide)]

theorem setSilence_settled {s : State} (h : s.settled) (k : StationId) (r : SilenceRec) : (s.setSilence k r).settled :=
  h.of_same rfl rfl rfl rfl rfl

/-- Settles O16: by the silence level of the station. -/
theorem keepaliveActsByTheSilenceLevel : Obligations.KeepaliveActsByTheSilenceLevel := by
  intro s dest p k e hq hl hi ha hc hk hp
  have hset := countD_settled hq.1.1 PortCounts.addReceived
  have hj : (s.countD PortCounts.addReceived).judgeForStation (byteAt p 0) (byteAt p 1) = .ok k := by
    rw [hk]
    exact judgeForStation_admitted (s := s.countD PortCounts.addReceived) (authorityFault_none (authority_eq hi ha) hc nofun) hp
  have hact : s.receiveKeepalive p = (s.countD PortCounts.addReceived).activity k := by
    rw [receiveKeepalive_fits hl]
    unfold State.takeKeepalive
    rw [hj]
  have hlevel : ∀ l, (s.silenceOf k).level = l → ((s.countD PortCounts.addReceived).silenceOf k).level = l := fun _ h => h
  refine ⟨fun h0 hn => ?_, fun h0 hn => ?_, fun h2 => ?_, fun h1 hn => ?_⟩
  · refine event_eq hq (f := fun s => s.receiveKeepalive p) (hact.trans ?_) (setSilence_settled hset k _)
    unfold State.activity
    rw [hlevel _ h0]
    exact restartSilence_of_count hn h0
  · refine event_eq hq (f := fun s => s.receiveKeepalive p) (hact.trans ?_) hset
    unfold State.activity
    rw [hlevel _ h0]
    exact restartSilence_of_none hn
  · refine event_eq hq (f := fun s => s.receiveKeepalive p) (hact.trans ?_) hset
    unfold State.activity
    rw [hlevel _ h2]
  · have hresume : s.receiveKeepalive p = (s.countD PortCounts.addReceived).resumeStation k
        (some (s.stationEntry k).silencePeriod) .activity := by
      refine hact.trans ?_
      unfold State.activity
      rw [hlevel _ h1]
      show (s.countD PortCounts.addReceived).resumeStation k (restartedTimer (s.stationEntry k)) .activity = _
      unfold restartedTimer
      rw [if_pos hn]
    have hexec : exec (.keepalive dest p) s = .next (s.receiveKeepalive p).finish := event_of_quiet hq _
    rw [hresume] at hexec
    have hfin : ∀ u : State, ∀ g, u.finish.chan g = u.chan g := fun u g => congrArg (fun c => Tab.get c g) (finish_chans u)
    have hreq := fun g => resumeStation_requests (s.countD PortCounts.addReceived) k (some (s.stationEntry k).silencePeriod)
      .activity g
    have hun := fun g => resumeStation_unsilenced (g := g) (s.countD PortCounts.addReceived) k
      (some (s.stationEntry k).silencePeriod) .activity
    refine ⟨_, hexec, ?_, fun g hg => ?_, fun g => ?_, ?_, ?_⟩
    · refine (congrArg (fun x => Tab.get x k) ((quiet_silence.finish _).trans (resumeStation_silence ..))).trans ?_
      exact silenceOf_setSilence_self ..
    · rw [hfin]
      exact ⟨(hun g hg).1, (hun g hg).2.1⟩
    · have hg := hreq g
      rw [if_neg fun h => by rw [hlevel _ h1] at h; cases h.2.1] at hg
      simp only [State.requests, Prod.mk.injEq] at hg
      rw [hfin]
      exact hg
    · have hnote := resumeStation_noticed (s := s) (w := s.countD PortCounts.addReceived) (k := k)
        (timer := some (s.stationEntry k).silencePeriod) (cause := .activity) (countD_sameBut s _) rfl rfl
      unfold State.turned at hnote
      rw [h1, if_neg (by decide)] at hnote
      exact hnote
    · exact (((countD_sameBut s _).mono (by decide)).trans (resumeStation_sameBut _ _ _ _)).trans ((finish_sameBut _).mono (by decide))

theorem handleResumeStation_none {s : State} {args : List Byte} {b : Byte} (hargs : args = [b]) (h : 5 < b.toNat) :
    s.handleResumeStation args = s.deny .badArgument := by
  unfold State.handleResumeStation
  rw [hargs, oneByte_singleton, Option.bind_some, toFin?_none_of_le (by omega)]

theorem handleResumeStation_station {s : State} {args : List Byte} {b : Byte} {k : StationId} (hargs : args = [b])
    (h : b.toNat = k.1) : s.handleResumeStation args = if (s.stationEntry k).isPresent then
        (if (s.silenceOf k).level = .l0 then s.restartSilence k
          else s.resumeStation k (restartedTimer (s.stationEntry k)) .request).grant []
      else s.deny .refusedState := by
  unfold State.handleResumeStation
  rw [hargs, oneByte_singleton, Option.bind_some, h, toFin?_val]
  simp only
  cases (s.silenceOf k).level <;> rfl

/-- Settles O33: by the station's number, presence and silence level. -/
theorem resumeStationEndsSilence : Obligations.ResumeStationEndsSilence := by
  intro s p b hs ha hargs
  refine ⟨fun hb => row_refused hs ha rfl nofun (handleResumeStation_none hargs hb) (.inl nofun), fun k hk => ⟨fun hp => ?_,
    fun hp h0 => ⟨fun hn => ?_, fun hn => ?_⟩, fun hp hne => ?_⟩⟩
  · refine row_refused hs ha rfl nofun ((handleResumeStation_station hargs hk).trans ?_) (.inl nofun)
    exact if_neg (by rw [show s.reserve.stationEntry k = s.stationEntry k from rfl, hp]; decide)
  · refine row_granted hs ha rfl nofun ((handleResumeStation_station hargs hk).trans ?_) (.inl nofun)
      (setSilence_settled hs.1 k _)
    rw [if_pos (show (s.reserve.stationEntry k).isPresent = true from hp), if_pos (show (s.reserve.silenceOf k).level = .l0 from h0),
      restartSilence_of_count (s := s.reserve) hn h0]
    rfl
  · refine row_granted hs ha rfl nofun ((handleResumeStation_station hargs hk).trans ?_) (.inl nofun) hs.1
    rw [if_pos (show (s.reserve.stationEntry k).isPresent = true from hp), if_pos (show (s.reserve.silenceOf k).level = .l0 from h0),
      restartSilence_of_none (s := s.reserve) hn]
    rfl
  · have hh : s.reserve.handle .resumeStation (reqArgs p)
        = { state := s.reserve.resumeStation k (restartedTimer (s.stationEntry k)) .request, status := .done, results := [] } := by
      refine (handleResumeStation_station hargs hk).trans ?_
      rw [if_pos (show (s.reserve.stationEntry k).isPresent = true from hp),
        if_neg (show ¬ (s.reserve.silenceOf k).level = .l0 from hne)]
      rfl
    obtain ⟨hrow, hrep⟩ := row_of_answer (row := fun r => r == .resumeStation) hs ha rfl nofun nofun hh
    have hplace := placeReply_sameBut (s.reserve.resumeStation k (restartedTimer (s.stationEntry k)) .request) p .done []
    have hchan : ∀ g, ((s.reserve.resumeStation k (restartedTimer (s.stationEntry k)) .request).placeReply p .done []).finish.chan g
        = (s.reserve.resumeStation k (restartedTimer (s.stationEntry k)) .request).chan g := fun g =>
      congrArg (fun c => Tab.get c g) ((finish_chans _).trans (hplace .chans (by decide)))
    have hreq := fun g => resumeStation_requests s.reserve k (restartedTimer (s.stationEntry k)) .request g
    simp only [State.requests, Prod.mk.injEq] at hreq
    refine ⟨_, hrow, hrep, ?_, fun g hg => ?_, fun g => ?_, fun g => ?_, ?_⟩
    · refine (congrArg (fun x => Tab.get x k) ((quiet_silence.finish _).trans ((hplace .silence (by decide)).trans
        (resumeStation_silence ..)))).trans ?_
      exact silenceOf_setSilence_self ..
    · rw [hchan]
      have hun := resumeStation_unsilenced s.reserve k (restartedTimer (s.stationEntry k)) .request hg
      exact ⟨hun.1, hun.2.1⟩
    · rw [hchan]
      exact (hreq g).2.1
    · rw [hchan]
      exact ⟨(hreq g).1, (hreq g).2.2⟩
    · exact ((((reserve_sameBut s).mono (by decide)).trans ((resumeStation_sameBut _ _ _ _).mono (by decide))).trans
        (hplace.mono (by decide))).trans ((finish_sameBut _).mono (by decide))

end Sys2Proof.Machine
end

section
/-! What an event of a gang does to channels and gangs, part by part (R78 to R88): the hold judged, the dwell and the turn checked,
the scan. -/

namespace Sys2Proof.Machine

theorem inState_inState (c : Channel) (st : ChanState) : (c.inState st).inState st = c.inState st := by
  unfold Channel.inState
  simp only [Bool.and_assoc, Bool.and_self]

theorem inState_of_ne_step {c : Channel} {st : ChanState} (h : st.isStep = false) : (c.inState st).silencePending = false := by
  unfold Channel.inState
  rw [h, Bool.and_false]

theorem chan_notify (s : State) (kind : NoticeKind) (subject : Subject) (d v : Nat) (g : Gate) :
    (s.notify kind subject d v).chan g = s.chan g := congrArg (fun c => Tab.get c g) (notify_chans ..)

theorem gang_notify (s : State) (kind : NoticeKind) (subject : Subject) (d v : Nat) (c : GangId) :
    (s.notify kind subject d v).gang c = s.gang c :=
  congrArg (fun x => Tab.get x c) (notify_sameBut s kind subject d v .gangs (by decide))

theorem gang_of_sameBut {ps : List Part} {s t : State} (hp : Part.gangs ∉ ps) (h : SameBut ps s t) (c : GangId) :
    t.gang c = s.gang c := congrArg (fun x => Tab.get x c) (h .gangs hp)

theorem chan_of_sameBut {ps : List Part} {s t : State} (hp : Part.chans ∉ ps) (h : SameBut ps s t) (g : Gate) :
    t.chan g = s.chan g := congrArg (fun x => Tab.get x g) (h .chans hp)

theorem setGang_sameBut (s : State) (c : GangId) (r : Gang) : SameBut [.gangs] s (s.setGang c r) := by
  intro x hx
  cases x <;> first | exact ⟨rfl, rfl⟩ | rfl | simp at hx

/-- The gang that names a gate names it among its members, and is present. -/
theorem mem_of_gangOf {p : Plan} {g : Gate} {c : GangId} (h : p.gangOf g = some c) : g ∈ p.membersOf c := by
  have := List.find?_some h
  exact List.contains_iff_mem.mp this

theorem present_of_gangOf {p : Plan} {g : Gate} {c : GangId} (h : p.gangOf g = some c) : (p.gangs.get c).isPresent = true := by
  have hm := mem_of_gangOf h
  unfold Plan.membersOf at hm
  split at hm
  · assumption
  · cases hm

theorem isOut_eq (r : Gang) (g : Gate) : r.isOut g = true ↔ g ∈ r.out := List.contains_iff_mem

/-! ### Members brought into the hold and out of it -/

/-- The members named, brought into HOLD with cause GANG. -/
def State.holdAll (s : State) (ms : List Gate) : State := forEach ms (fun m s => s.enter m (.hold .gang)) s

theorem holdAll_chan (ms : List Gate) (s : State) (g : Gate) :
    (s.holdAll ms).chan g = if g ∈ ms then (s.chan g).inState (.hold .gang) else s.chan g := by
  induction ms generalizing s with
  | nil => rfl
  | cons m ms ih =>
    refine (ih (s.enter m (.hold .gang))).trans ?_
    rw [enter_chan]
    by_cases hg : g = m
    · subst hg
      rw [if_pos rfl, if_pos (List.mem_cons_self ..), inState_inState, ite_self]
    · rw [if_neg hg]
      simp only [List.mem_cons, hg, false_or]

theorem holdAll_sameBut (ms : List Gate) (s : State) : SameBut [.chans, .portF] s (s.holdAll ms) :=
  forEach_sameBut (fun _ _ => enter_sameBut _ _ _) ms s

theorem mem_holdable {s : State} {c : GangId} {m : Gate} : m ∈ s.holdable c ↔ m ∈ s.members c ∧ (s.gang c).isOut m = false
    ∧ ((s.chan m).state = .idle ∨ (s.chan m).state.isDwell = true) := by
  unfold State.holdable
  rw [List.mem_filter]
  simp only [Bool.and_eq_true, Bool.not_eq_true', Bool.or_eq_true, beq_iff_eq]

theorem mem_blockers {s : State} {c : GangId} {m : Gate} : m ∈ s.blockers c ↔ m ∈ s.members c ∧ (s.gang c).isOut m = false
    ∧ (s.chan m).state.blocks = true := by
  unfold State.blockers
  rw [List.mem_filter]
  simp only [Bool.and_eq_true, Bool.not_eq_true']

/-- The out member whose gang dwell a hold cancels (R86). -/
def State.wokenBy (s : State) (c : GangId) : List Gate :=
  match (s.gang c).dwell with
  | some d => if (s.gang c).isOut d.member && (s.chan d.member).state.isDwell then [d.member] else []
  | none => []

theorem mem_wokenBy {s : State} {c : GangId} {m : Gate} (h : m ∈ s.wokenBy c) :
    (s.gang c).isOut m = true ∧ (s.chan m).state.isDwell = true := by
  unfold State.wokenBy at h
  split at h
  · split at h
    · next hd =>
      rw [List.mem_singleton] at h
      rw [h]
      exact Bool.and_eq_true_iff.mp hd
    · cases h
  · cases h

/-- The record of a gang that becomes held (R86). -/
def State.heldRecord (s : State) (c : GangId) : Gang :=
  { s.gang c with hold := true, holder := (s.gang c).holder.filter fun h => (s.chan h).state.isStep, dwell := none }

/-- The channels and records of a gang that became held, before its notice. -/
def State.heldState (s : State) (c : GangId) : State :=
  forEach (s.wokenBy c) (fun m s => s.enter m .idle) ((s.setGang c (s.heldRecord c)).holdAll (s.holdable c))

theorem idleAll_chan (ms : List Gate) (s : State) (g : Gate) : (forEach ms (fun m s => s.enter m .idle) s).chan g
    = if g ∈ ms then (s.chan g).inState .idle else s.chan g := by
  induction ms generalizing s with
  | nil => rfl
  | cons m ms ih =>
    refine (ih (s.enter m .idle)).trans ?_
    rw [enter_chan]
    by_cases hg : g = m
    · subst hg
      rw [if_pos rfl, if_pos (List.mem_cons_self ..), inState_inState, ite_self]
    · rw [if_neg hg]
      simp only [List.mem_cons, hg, false_or]

theorem heldState_chan (s : State) (c : GangId) (g : Gate) : (s.heldState c).chan g
    = if g ∈ s.holdable c then (s.chan g).inState (.hold .gang)
      else if g ∈ s.wokenBy c then (s.chan g).inState .idle else s.chan g := by
  unfold State.heldState
  rw [idleAll_chan, holdAll_chan]
  by_cases hw : g ∈ s.wokenBy c
  · have hn : g ∉ s.holdable c := fun hm => by
      have := (mem_holdable.mp hm).2.1
      rw [(mem_wokenBy hw).1] at this
      cases this
    rw [if_pos hw, if_neg hn, if_neg hn, if_pos hw]
    rfl
  · rw [if_neg hw, if_neg hw]
    rfl

theorem heldState_sameBut (s : State) (c : GangId) : SameBut [.chans, .portF] (s.setGang c (s.heldRecord c)) (s.heldState c) :=
  (holdAll_sameBut _ _).trans (forEach_sameBut (fun _ _ => enter_sameBut _ _ _) _ _)

theorem heldState_gang (s : State) (c j : GangId) : (s.heldState c).gang j = if j = c then s.heldRecord c else s.gang j :=
  (gang_of_sameBut (by decide) (heldState_sameBut s c) j).trans (gang_setGang ..)

theorem becomeHeld_loud (s : State) (c : GangId) (b : Gate) : s.becomeHeld c b false
    = ((s.heldState c).notify .gangHold (.gang c.1) (packDetail b.1 ((s.heldState c).chan b).state.code)
      (s.holdable c).length) := rfl

theorem becomeHeld_quiet (s : State) (c : GangId) (b : Gate) : s.becomeHeld c b true = s.heldState c := rfl

/-- A named member leaves HOLD with cause GANG; every other channel stays (R88). -/
theorem freeMembers_chan (ms : List Gate) (s : State) (g : Gate) : (s.freeMembers ms).chan g
    = if g ∈ ms ∧ (s.chan g).state = .hold .gang then (s.chan g).inState (s.afterGangHold g) else s.chan g := by
  unfold State.freeMembers
  have hafter : ∀ (u : State) (m : Gate), (if (u.chan m).state = .hold .gang then u.enter m (u.afterGangHold m) else u).afterGangHold g
      = u.afterGangHold g := fun u m => by
    split
    · exact afterGangHold_of_same (enter_sameBut _ _ _ .store (by decide)) (enter_sameBut _ _ _ .silence (by decide)) g
    · rfl
  have hnot : ∀ u : State, u.afterGangHold g ≠ .hold .gang := fun u => by
    unfold State.afterGangHold
    split <;> nofun
  induction ms generalizing s with
  | nil => exact (if_neg fun h => nomatch h.1).symm
  | cons m ms ih =>
    refine (ih _).trans ?_
    beta_reduce
    rw [hafter]
    by_cases hm : (s.chan m).state = .hold .gang
    · rw [if_pos hm, enter_chan]
      by_cases hg : g = m
      · subst hg
        rw [if_pos rfl, if_neg fun h => hnot s h.2, if_pos ⟨List.mem_cons_self .., hm⟩]
      · rw [if_neg hg]
        simp only [List.mem_cons, hg, false_or]
    · rw [if_neg hm]
      by_cases hg : g = m
      · subst hg
        rw [if_neg fun h => hm h.2, if_neg fun h => hm h.2]
      · simp only [List.mem_cons, hg, false_or]

theorem freeMembers_sameBut (ms : List Gate) (s : State) : SameBut [.chans, .portF] s (s.freeMembers ms) :=
  forEach_sameBut (fun m u => by
    split
    · exact enter_sameBut _ _ _
    · exact SameBut.refl _ _) ms s

/-- The channels and records of a released gang, before its notice. -/
def State.freedState (s : State) (c : GangId) : State :=
  (s.setGang c { s.gang c with hold := false }).freeMembers ((s.members c).filter fun m => (s.chan m).state == .hold .gang)

theorem releaseGang_eq (s : State) (c : GangId) (cause : Gate) : ∃ v, s.releaseGang c cause
    = (s.freedState c).notify .gangRelease (.gang c.1) (packDetail 0 cause.1) v := ⟨_, rfl⟩

theorem freedState_chan (s : State) (c : GangId) (g : Gate) : (s.freedState c).chan g
    = if g ∈ s.members c ∧ (s.chan g).state = .hold .gang then (s.chan g).inState (s.afterGangHold g) else s.chan g := by
  unfold State.freedState
  rw [freeMembers_chan]
  have hmem : g ∈ ((s.members c).filter fun m => (s.chan m).state == .hold .gang)
      ↔ g ∈ s.members c ∧ (s.chan g).state = .hold .gang := by
    rw [List.mem_filter, beq_iff_eq]
  refine ite_congr (propext ?_) (fun _ => rfl) fun _ => rfl
  rw [hmem]
  exact ⟨fun h => h.1, fun h => ⟨h, h.2⟩⟩

theorem freedState_gang (s : State) (c j : GangId) :
    (s.freedState c).gang j = if j = c then { s.gang c with hold := false } else s.gang j :=
  (gang_of_sameBut (by decide) (freeMembers_sameBut _ _) j).trans (gang_setGang ..)

/-! ### The hold judged -/

theorem judgeHold_free {s : State} {c : GangId} (hh : (s.gang c).hold = false) (hb : s.blockers c = []) (cause : Gate) :
    s.judgeHold c cause = s := by
  unfold State.judgeHold
  rw [hh, hb]

theorem judgeHold_becomes {s : State} {c : GangId} {b : Gate} {bs : List Gate} (hh : (s.gang c).hold = false)
    (hb : s.blockers c = b :: bs) (cause : Gate) : s.judgeHold c cause = s.becomeHeld c b false := by
  unfold State.judgeHold
  rw [hh, hb]

theorem judgeHold_releases {s : State} {c : GangId} (hh : (s.gang c).hold = true) (hb : s.blockers c = []) (cause : Gate) :
    s.judgeHold c cause = s.releaseGang c cause := by
  unfold State.judgeHold
  rw [hh, hb]

theorem judgeHold_holds {s : State} {c : GangId} (hh : (s.gang c).hold = true) (hb : s.blockers c ≠ []) (cause : Gate) :
    s.judgeHold c cause = s.holdAll (s.holdable c) := by
  unfold State.judgeHold
  rw [hh]
  split
  · next h _ => cases h
  · next h _ => cases h
  · next h => exact absurd h hb
  · rfl

/-- A blocked gang is held after its hold is judged, with its members that could move in HOLD with cause GANG. -/
theorem judgeHold_blocked {s : State} {c : GangId} (hb : s.blockers c ≠ []) (cause : Gate) :
    ((s.judgeHold c cause).gang c).hold = true ∧ (∀ m ∈ s.holdable c, (s.judgeHold c cause).chan m = (s.chan m).inState (.hold .gang))
      ∧ ∀ g, g ∉ s.holdable c → (s.chan g).state.isDwell = false → (s.judgeHold c cause).chan g = s.chan g := by
  cases hh : (s.gang c).hold with
  | true =>
    rw [judgeHold_holds hh hb]
    refine ⟨by rw [gang_of_sameBut (by decide) (holdAll_sameBut _ _)]; exact hh, fun m hm => ?_, fun g hg _ => ?_⟩
    · rw [holdAll_chan, if_pos hm]
    · rw [holdAll_chan, if_neg hg]
  | false =>
    obtain ⟨b, bs, hbs⟩ := List.exists_cons_of_ne_nil hb
    rw [judgeHold_becomes hh hbs, becomeHeld_loud]
    refine ⟨?_, fun m hm => ?_, fun g hg hd => ?_⟩
    · rw [gang_notify, heldState_gang, if_pos rfl]
      rfl
    · rw [chan_notify, heldState_chan, if_pos hm]
    · rw [chan_notify, heldState_chan, if_neg hg, if_neg fun hw => ?_]
      rw [(mem_wokenBy hw).2] at hd
      cases hd

/-- A gang that nothing blocks is not held after its hold is judged, and only its members in HOLD with cause GANG are moved. -/
theorem judgeHold_unblocked {s : State} {c : GangId} (hb : s.blockers c = []) (cause : Gate) :
    ((s.judgeHold c cause).gang c) = { s.gang c with hold := false }
      ∧ ∀ g, (s.chan g).state ≠ .hold .gang → (s.judgeHold c cause).chan g = s.chan g := by
  cases hh : (s.gang c).hold with
  | true =>
    rw [judgeHold_releases hh hb]
    obtain ⟨v, hv⟩ := releaseGang_eq s c cause
    rw [hv]
    refine ⟨by rw [gang_notify, freedState_gang, if_pos rfl], fun g hg => ?_⟩
    rw [chan_notify, freedState_chan, if_neg fun h => hg h.2]
  | false =>
    rw [judgeHold_free hh hb]
    exact ⟨by rw [← hh], fun _ _ => rfl⟩

/-- A channel in IDLE stays or enters HOLD with cause GANG, the latter only as a member that is not out. -/
theorem judgeHold_idle {s : State} {c : GangId} {g : Gate} (hi : (s.chan g).state = .idle) (cause : Gate) :
    (s.judgeHold c cause).chan g = s.chan g
      ∨ g ∈ s.holdable c ∧ (s.judgeHold c cause).chan g = (s.chan g).inState (.hold .gang) := by
  by_cases hb : s.blockers c = []
  · exact .inl ((judgeHold_unblocked hb cause).2 g (by rw [hi]; nofun))
  · obtain ⟨_, hin, hout⟩ := judgeHold_blocked hb cause
    by_cases hg : g ∈ s.holdable c
    · exact .inr ⟨hg, hin g hg⟩
    · exact .inl (hout g hg (by rw [hi]; rfl))

/-- The out marks and last movers, and every record of another gang, stay; a dwell is only cancelled. -/
structure GangKept (c : GangId) (s t : State) : Prop where
  out : (t.gang c).out = (s.gang c).out
  lastMover : (t.gang c).lastMover = (s.gang c).lastMover
  dwell : (s.gang c).dwell = none → (t.gang c).dwell = none
  others : ∀ j, j ≠ c → t.gang j = s.gang j

theorem GangKept.trans {c : GangId} {s t u : State} (h : GangKept c s t) (h' : GangKept c t u) : GangKept c s u :=
  ⟨h'.out.trans h.out, h'.lastMover.trans h.lastMover, fun hd => h'.dwell (h.dwell hd),
    fun j hj => (h'.others j hj).trans (h.others j hj)⟩

theorem GangKept.of_gangs {c : GangId} {s t : State} (h : ∀ j, t.gang j = s.gang j) : GangKept c s t :=
  ⟨by rw [h], by rw [h], fun hd => by rw [h, hd], fun j _ => h j⟩

/-- A write of the gang's record that keeps the marks. -/
theorem GangKept.of_record {c : GangId} {s t : State} {r : Gang} (h : ∀ j, t.gang j = if j = c then r else s.gang j)
    (ho : r.out = (s.gang c).out) (hl : r.lastMover = (s.gang c).lastMover) (hd : (s.gang c).dwell = none → r.dwell = none) :
    GangKept c s t := by
  have hself : t.gang c = r := (h c).trans (if_pos rfl)
  exact ⟨by rw [hself, ho], by rw [hself, hl], fun hn => by rw [hself, hd hn], fun j hj => (h j).trans (if_neg hj)⟩

theorem judgeHold_kept (s : State) (c : GangId) (cause : Gate) : GangKept c s (s.judgeHold c cause) := by
  by_cases hb : s.blockers c = []
  · cases hh : (s.gang c).hold with
    | true =>
      rw [judgeHold_releases hh hb]
      obtain ⟨v, hv⟩ := releaseGang_eq s c cause
      rw [hv]
      refine .of_record (r := { s.gang c with hold := false }) (fun j => ?_) rfl rfl fun h => h
      rw [gang_notify, freedState_gang]
    | false =>
      rw [judgeHold_free hh hb]
      exact .of_gangs fun _ => rfl
  · cases hh : (s.gang c).hold with
    | true =>
      rw [judgeHold_holds hh hb]
      exact .of_gangs (gang_of_sameBut (by decide) (holdAll_sameBut _ _))
    | false =>
      obtain ⟨b, bs, hbs⟩ := List.exists_cons_of_ne_nil hb
      rw [judgeHold_becomes hh hbs, becomeHeld_loud]
      refine .of_record (r := s.heldRecord c) (fun j => ?_) rfl rfl fun _ => rfl
      rw [gang_notify, heldState_gang]

/-! ### The dwell and the turn checked -/

theorem checkDwell_sameBut (s : State) (c : GangId) : SameBut [.gangs] s (s.checkDwell c) := by
  unfold State.checkDwell
  split
  · split
    · exact SameBut.refl _ _
    · exact setGang_sameBut _ _ _
  · exact SameBut.refl _ _

theorem checkDwell_cases (s : State) (c : GangId) : s.checkDwell c = s ∨ s.checkDwell c = s.setGang c { s.gang c with dwell := none } := by
  unfold State.checkDwell
  split
  · split
    · exact .inl rfl
    · exact .inr rfl
  · exact .inl rfl

theorem checkDwell_none {s : State} {c : GangId} (h : (s.gang c).dwell = none) : s.checkDwell c = s := by
  unfold State.checkDwell
  rw [h]

theorem checkDwell_dwelling {s : State} {c : GangId} {d : GangDwell} (h : (s.gang c).dwell = some d)
    (hd : (s.chan d.member).state.isDwell = true) : s.checkDwell c = s := by
  unfold State.checkDwell
  rw [h]
  exact if_pos hd

theorem checkDwell_kept (s : State) (c : GangId) : GangKept c s (s.checkDwell c)
    ∧ ((s.checkDwell c).gang c).hold = (s.gang c).hold ∧ ((s.checkDwell c).gang c).holder = (s.gang c).holder := by
  rcases checkDwell_cases s c with h | h <;> rw [h]
  · exact ⟨.of_gangs fun _ => rfl, rfl, rfl⟩
  · refine ⟨.of_record (r := { s.gang c with dwell := none }) (fun j => gang_setGang ..) rfl rfl fun _ => rfl, ?_, ?_⟩
    · rw [gang_setGang_self]
    · rw [gang_setGang_self]

theorem leaveWaits_sameBut (s : State) (g : Gate) : SameBut [.portF] s (s.leaveWaits g) := setPortF_sameBut _ _

theorem checkTurn_sameBut (s : State) (c : GangId) (k : GangCause) (m : Option Gate) :
    SameBut [.gangs, .portF] s (s.checkTurn c k m) := by
  unfold State.checkTurn
  split
  · split
    · exact SameBut.refl _ _
    · exact ((setGang_sameBut _ _ _).mono (by decide)).trans ((leaveWaits_sameBut _ _).mono (by decide))
  · exact SameBut.refl _ _

theorem checkTurn_none {s : State} {c : GangId} (h : (s.gang c).holder = none) (k : GangCause) (m : Option Gate) :
    s.checkTurn c k m = s := by
  unfold State.checkTurn
  rw [h]

/-- The record after the turn was checked: the holder kept or none. -/
theorem checkTurn_gang (s : State) (c : GangId) (k : GangCause) (m : Option Gate) (j : GangId) :
    (s.checkTurn c k m).gang j = if j = c then { s.gang c with holder := ((s.checkTurn c k m).gang c).holder } else s.gang j := by
  unfold State.checkTurn
  split
  · next x _ =>
    split
    · split
      · next hj => rw [hj]
      · rfl
    · have h : ∀ i, ((s.setGang c { s.gang c with holder := none }).leaveWaits x).gang i
          = if i = c then { s.gang c with holder := none } else s.gang i := fun i => gang_setGang ..
      rw [h, h, if_pos rfl]
  · split
    · next hj => rw [hj]
    · rfl

/-- Who holds the turn after the check held it before, and its place lets it. -/
theorem checkTurn_holder {s : State} {c : GangId} {k : GangCause} {m : Option Gate} {h : Gate}
    (hh : ((s.checkTurn c k m).gang c).holder = some h) : (s.gang c).holder = some h ∧ s.mayHold c h = true := by
  unfold State.checkTurn at hh
  split at hh
  · next i hi =>
    split at hh
    · next hk =>
      rw [hi] at hh
      cases hh
      exact ⟨hi, (Bool.and_eq_true_iff.mp hk).1⟩
    · have hnone : ((s.setGang c { s.gang c with holder := none }).leaveWaits i).gang c = { s.gang c with holder := none } :=
        gang_setGang_self ..
      rw [hnone] at hh
      cases hh
  · next hn =>
    rw [hn] at hh
    cases hh

theorem checkTurn_kept (s : State) (c : GangId) (k : GangCause) (m : Option Gate) : GangKept c s (s.checkTurn c k m)
    ∧ ((s.checkTurn c k m).gang c).hold = (s.gang c).hold := by
  have hself := (checkTurn_gang s c k m c).trans (if_pos rfl)
  exact ⟨.of_record (checkTurn_gang s c k m) rfl rfl fun h => h, by rw [hself]⟩

/-! ### The scan -/

/-- A scan gives the turn to the member it picks, which judges, or has the holder judge that caused the event. -/
theorem scan_cases (s : State) (c : GangId) (cause : Option Gate) :
    (∃ m, s.scanPick c = some m ∧ s.scan c cause = (s.setGang c { s.gang c with holder := some m }).judge m)
    ∨ s.scanPick c = none ∧ (s.scan c cause = s
        ∨ ∃ g, cause = some g ∧ (s.gang c).holder = some g ∧ s.scan c cause = s.judge g) := by
  unfold State.scan
  split
  · next m hm => exact .inl ⟨m, hm, rfl⟩
  · next hn =>
    refine .inr ⟨hn, ?_⟩
    split
    · next g =>
      split
      · next hh => exact .inr ⟨g, rfl, hh, rfl⟩
      · exact .inl rfl
    · exact .inl rfl

/-- A scan picks among the members of a gang that is free. -/
theorem scanPick_free {s : State} {c : GangId} {m : Gate} (h : s.scanPick c = some m) :
    (s.gang c).holder = none ∧ (s.gang c).dwell = none ∧ (s.gang c).hold = false ∧ (s.gang c).isOut m = false
      ∧ (s.workTarget m).isSome = true := by
  unfold State.scanPick at h
  split at h
  · next hfree =>
    simp only [Bool.and_eq_true, Option.isNone_iff_eq_none, Bool.not_eq_true'] at hfree
    have hm := List.find?_some h
    simp only [Bool.and_eq_true, Bool.not_eq_true'] at hm
    exact ⟨hfree.1.1, hfree.1.2, hfree.2, hm.1, hm.2⟩
  · cases h

theorem scanPick_of_hold {s : State} {c : GangId} (h : (s.gang c).hold = true) : s.scanPick c = none := by
  cases hp : s.scanPick c with
  | none => rfl
  | some m => rw [(scanPick_free hp).2.2.1] at h; cases h

theorem scanPick_of_dwell {s : State} {c : GangId} (h : (s.gang c).dwell ≠ none) : s.scanPick c = none := by
  cases hp : s.scanPick c with
  | none => rfl
  | some m => exact absurd (scanPick_free hp).2.1 h

theorem judge_gang (s : State) (g : Gate) (c : GangId) : (s.judge g).gang c = s.gang c :=
  gang_of_sameBut (by decide) (judge_sameBut s g) c

theorem scan_sameBut (s : State) (c : GangId) (cause : Option Gate) :
    SameBut [.chans, .gangs, .portF, .report] s (s.scan c cause) := by
  rcases scan_cases s c cause with ⟨m, _, h⟩ | ⟨_, h | ⟨g, _, _, h⟩⟩ <;> rw [h]
  · exact ((setGang_sameBut _ _ _).mono (by decide)).trans ((judge_sameBut _ _).mono (by decide))
  · exact SameBut.refl _ _
  · exact (judge_sameBut _ _).mono (by decide)

theorem scan_kept (s : State) (c : GangId) (cause : Option Gate) : GangKept c s (s.scan c cause)
    ∧ ((s.scan c cause).gang c).hold = (s.gang c).hold := by
  rcases scan_cases s c cause with ⟨m, _, h⟩ | ⟨_, h | ⟨g, _, _, h⟩⟩ <;> rw [h]
  · have hg : ∀ j, ((s.setGang c { s.gang c with holder := some m }).judge m).gang j
        = if j = c then { s.gang c with holder := some m } else s.gang j := fun j =>
      (judge_gang _ _ _).trans (gang_setGang ..)
    exact ⟨.of_record hg rfl rfl fun h => h, by rw [hg, if_pos rfl]⟩
  · exact ⟨.of_gangs fun _ => rfl, rfl⟩
  · exact ⟨.of_gangs (judge_gang s g), by rw [judge_gang]⟩

/-- A judging leaves a channel, or starts its increment out of IDLE toward its work target. -/
theorem judge_chan_cases (s : State) (g h : Gate) : (s.judge h).chan g = s.chan g
    ∨ h = g ∧ ∃ target, s.workTarget g = some target ∧ ((s.judge h).chan g).state = .step target (s.gateEntry g).stepTimeout := by
  rcases judge_cases s h with ⟨target, hw, _, _, he⟩ | ⟨_, _, he⟩ <;> rw [he]
  · rw [startIncrement_chan]
    split
    · next hg =>
      subst hg
      exact .inr ⟨rfl, target, hw, rfl⟩
    · exact .inl rfl
  · exact .inl rfl

/-- What the turn and the gangs do not enter: a channel's work. -/
theorem workTarget_congr {s t : State} {g : Gate} (hc : t.chans = s.chans) (ha : t.store = s.store) (hst : t.stations = s.stations)
    (hout : ∀ c, (t.gang c).out = (s.gang c).out) : t.workTarget g = s.workTarget g := by
  have hchan : ∀ h, t.chan h = s.chan h := fun h => congrArg (fun x => Tab.get x h) hc
  have hact : t.active = s.active := congrArg PlanStore.active ha
  unfold State.workTarget State.hasWork State.cappedStep State.caps State.otherOpenings State.inSurcharge State.gateEntry
    State.gangEntry State.members State.station
  simp only [hchan, hact, hout, hst]

/-- A scan leaves a channel, or starts its increment out of IDLE toward its work target. -/
theorem scan_chan_cases (s : State) (c : GangId) (cause : Option Gate) (g : Gate) : (s.scan c cause).chan g = s.chan g
    ∨ (s.scanPick c = some g ∨ cause = some g ∧ (s.gang c).holder = some g)
      ∧ ∃ target, s.workTarget g = some target
        ∧ ((s.scan c cause).chan g).state = .step target (s.gateEntry g).stepTimeout := by
  rcases scan_cases s c cause with ⟨m, hm, h⟩ | ⟨_, h | ⟨i, hi, hh, h⟩⟩ <;> rw [h]
  · have hw : (s.setGang c { s.gang c with holder := some m }).workTarget g = s.workTarget g :=
      workTarget_congr rfl rfl rfl fun j => by
        rw [gang_setGang]
        split
        · next hj => rw [hj]
        · rfl
    rcases judge_chan_cases (s.setGang c { s.gang c with holder := some m }) g m with hk | ⟨he, target, ht, hst⟩
    · exact .inl hk
    · subst he
      exact .inr ⟨.inl hm, target, hw ▸ ht, hst⟩
  · exact .inl rfl
  · rcases judge_chan_cases s g i with hk | ⟨he, target, ht, hst⟩
    · exact .inl hk
    · subst he
      exact .inr ⟨.inr ⟨hi, hh⟩, target, ht, hst⟩

/-- A channel that is not in IDLE is left by a scan. -/
theorem scan_chan_of_busy (s : State) (c : GangId) (cause : Option Gate) {g : Gate} (h : (s.chan g).state ≠ .idle) :
    (s.scan c cause).chan g = s.chan g := by
  rcases scan_chan_cases s c cause g with hk | ⟨_, target, hw, _⟩
  · exact hk
  · exact absurd (workTarget_idle hw) h

/-! ### The whole event -/

/-- The gang's state when its scan begins. -/
def State.checked (s : State) (c : GangId) (kind : GangCause) (cause : Gate) : State :=
  ((s.judgeHold c cause).checkDwell c).checkTurn c kind (some cause)

theorem gangEvent_present {s : State} {c : GangId} (h : (s.gangEntry c).isPresent = true) (kind : GangCause) (cause : Gate) :
    s.gangEvent c kind cause = (s.checked c kind cause).scan c (some cause) := if_pos h

theorem checked_sameBut (s : State) (c : GangId) (kind : GangCause) (cause : Gate) :
    SameBut [.gangs, .portF] (s.judgeHold c cause) (s.checked c kind cause) :=
  ((checkDwell_sameBut _ _).mono (by decide)).trans (checkTurn_sameBut _ _ _ _)

theorem checked_chan (s : State) (c : GangId) (kind : GangCause) (cause g : Gate) :
    (s.checked c kind cause).chan g = (s.judgeHold c cause).chan g := chan_of_sameBut (by decide) (checked_sameBut s c kind cause) g

theorem checked_kept (s : State) (c : GangId) (kind : GangCause) (cause : Gate) : GangKept c s (s.checked c kind cause) :=
  ((judgeHold_kept s c cause).trans (checkDwell_kept _ c).1).trans (checkTurn_kept _ c kind _).1

theorem checked_hold (s : State) (c : GangId) (kind : GangCause) (cause : Gate) :
    ((s.checked c kind cause).gang c).hold = ((s.judgeHold c cause).gang c).hold :=
  (checkTurn_kept _ c kind _).2.trans (checkDwell_kept _ c).2.1

/-- Who holds the turn when the scan begins may hold it. -/
theorem checked_holder {s : State} {c : GangId} {kind : GangCause} {cause h : Gate}
    (hh : ((s.checked c kind cause).gang c).holder = some h) : ((s.judgeHold c cause).gang c).holder = some h
      ∧ ((s.checked c kind cause).chan h).state.isStep = true
        ∨ ((s.judgeHold c cause).gang c).holder = some h ∧ ((s.checked c kind cause).chan h).state = .idle
          ∧ (s.gang c).isOut h = false ∧ ((s.judgeHold c cause).gang c).hold = false := by
  obtain ⟨hheld, hmay⟩ := checkTurn_holder hh
  have hdwell := checkDwell_kept (s.judgeHold c cause) c
  rw [hdwell.2.2] at hheld
  unfold State.mayHold at hmay
  rw [chan_of_sameBut (by decide) (checkDwell_sameBut _ _), hdwell.2.1] at hmay
  unfold Gang.isOut at hmay
  rw [hdwell.1.out, (judgeHold_kept s c cause).out] at hmay
  rw [checked_chan]
  simp only [Bool.or_eq_true, Bool.and_eq_true, beq_iff_eq, Bool.not_eq_true'] at hmay
  rcases hmay with hs | ⟨⟨hi, ho⟩, hn⟩
  · exact .inl ⟨hheld, hs⟩
  · exact .inr ⟨hheld, hi, ho, hn⟩

theorem gangEvent_kept (s : State) (c : GangId) (kind : GangCause) (cause : Gate) : GangKept c s (s.gangEvent c kind cause) := by
  by_cases h : (s.gangEntry c).isPresent = true
  · rw [gangEvent_present h]
    exact (checked_kept ..).trans (scan_kept ..).1
  · rw [State.gangEvent, if_neg h]
    exact .of_gangs fun _ => rfl

/-- A channel that is out of IDLE once the hold is judged is left by the rest of the event. -/
theorem gangEvent_chan_of_busy {s : State} {c : GangId} (hp : (s.gangEntry c).isPresent = true) (kind : GangCause) {cause g : Gate}
    (hb : ((s.judgeHold c cause).chan g).state ≠ .idle) :
    (s.gangEvent c kind cause).chan g = (s.judgeHold c cause).chan g := by
  rw [gangEvent_present hp, scan_chan_of_busy _ _ _ (by rw [checked_chan]; exact hb), checked_chan]

/-- A channel in IDLE ends an event of a gang in IDLE, in STEP, or, as a member that is not out, in HOLD with cause GANG. -/
theorem gangEvent_idle {s : State} {g : Gate} (hi : (s.chan g).state = .idle) (c : GangId) (kind : GangCause) (cause : Gate) :
    ((s.gangEvent c kind cause).chan g).state = .idle ∨ ((s.gangEvent c kind cause).chan g).state.isStep = true
      ∨ g ∈ s.holdable c ∧ ((s.gangEvent c kind cause).chan g).state = .hold .gang := by
  by_cases hp : (s.gangEntry c).isPresent = true
  · rcases judgeHold_idle hi (c := c) cause with hk | ⟨hm, hk⟩
    · rw [gangEvent_present hp]
      rcases scan_chan_cases (s.checked c kind cause) c (some cause) g with h | ⟨_, target, _, h⟩
      · rw [h, checked_chan, hk]
        exact .inl hi
      · rw [h]
        exact .inr (.inl rfl)
    · rw [gangEvent_chan_of_busy hp kind (by rw [hk]; nofun), hk]
      exact .inr (.inr ⟨hm, rfl⟩)
  · rw [State.gangEvent, if_neg hp]
    exact .inl hi

theorem judge_idle {s : State} {g : Gate} (hi : (s.chan g).state = .idle) (h : Gate) :
    ((s.judge h).chan g).state = .idle ∨ ((s.judge h).chan g).state.isStep = true := by
  rcases judge_chan_cases s g h with hk | ⟨_, target, _, hk⟩ <;> rw [hk]
  · exact .inl hi
  · exact .inr rfl

/-- A channel in IDLE ends a channel's event in IDLE, in STEP, or, in a gang, in HOLD with cause GANG. -/
theorem chanEvent_idle {s : State} {g : Gate} (hi : (s.chan g).state = .idle) (kind : GangCause) :
    ((s.chanEvent kind g).chan g).state = .idle ∨ ((s.chanEvent kind g).chan g).state.isStep = true
      ∨ s.active.gangOf g ≠ none ∧ ((s.chanEvent kind g).chan g).state = .hold .gang := by
  unfold State.chanEvent
  split
  · rcases judge_idle hi g with h | h
    · exact .inl h
    · exact .inr (.inl h)
  · next c hc =>
    rcases gangEvent_idle hi c kind g with h | h | ⟨_, h⟩
    · exact .inl h
    · exact .inr (.inl h)
    · exact .inr (.inr ⟨by rw [hc]; nofun, h⟩)

theorem chanEvent_alone {s : State} {g : Gate} (h : s.active.gangOf g = none) (kind : GangCause) : s.chanEvent kind g = s.judge g := by
  unfold State.chanEvent
  rw [h]

theorem chanEvent_gang {s : State} {g : Gate} {c : GangId} (h : s.active.gangOf g = some c) (kind : GangCause) :
    s.chanEvent kind g = s.gangEvent c kind g := by
  unfold State.chanEvent
  rw [h]

theorem workTarget_none {s : State} {g : Gate} (h : s.hasWork g = false) : s.workTarget g = none := by
  unfold State.workTarget
  rw [h, Bool.and_false, if_neg (by decide)]

/-- Without work a channel outside a gang stays where it judges. -/
theorem judge_chan_no_work {s : State} {g : Gate} (h : s.hasWork g = false) (i : Gate) : (s.judge i).chan g = s.chan g := by
  rcases judge_chan_cases s g i with hk | ⟨_, target, hw, _⟩
  · exact hk
  · rw [workTarget_none h] at hw
    cases hw

end Sys2Proof.Machine
end

section
/-! Requests on a single gate: RESUME_GATE, FORCE_GATE and SET_MEMBER_OUT (R22, R23, R90, R91). -/

namespace Sys2Proof.Machine

/-- The trace that the channel carries superseded (R169). -/
def State.supersede (s : State) (g : Gate) : State := if s.traces g then s.endTrace .superseded else s

theorem supersede_sameBut (s : State) (g : Gate) : SameBut [.report] s (s.supersede g) := by
  unfold State.supersede
  split
  · exact endTrace_sameBut _ _
  · exact SameBut.refl _ _

theorem force_supersede (s : State) (g : Gate) (o : Nat) : s.force g o = ((s.forced g o).supersede g).chanEvent .request g := rfl

/-- Answering changes no channel. -/
theorem answered_chan (u : State) (p : List Byte) (status : Status) (results : List Byte) (g : Gate) :
    (u.placeReply p status results).finish.chan g = u.chan g :=
  congrArg (fun c => Tab.get c g) ((finish_chans _).trans (placeReply_sameBut u p status results .chans (by decide)))

theorem answered_sameBut (u : State) (p : List Byte) (status : Status) (results : List Byte) :
    SameBut [.portD, .portF, .report] u (u.placeReply p status results).finish :=
  ((placeReply_sameBut u p status results).mono (by decide)).trans ((finish_sameBut _).mono (by decide))

theorem answered_gang (u : State) (p : List Byte) (status : Status) (results : List Byte) (c : GangId) :
    (u.placeReply p status results).finish.gang c = u.gang c := gang_of_sameBut (by decide) (answered_sameBut u p status results) c

/-! ### RESUME_GATE and FORCE_GATE -/

theorem handleResumeGate_gate {s : State} {args : List Byte} {b : Byte} {g : Gate} (hargs : args = [b]) (hg : b.toNat = g.1) :
    s.handleResumeGate args = if (s.chan g).state = .hold .stall then ((s.enter g .idle).chanEvent .other g).grant []
      else s.deny .refusedState := by
  unfold State.handleResumeGate
  rw [hargs, oneByte_singleton, Option.bind_some, hg, toFin?_val]

theorem handleForceGate_gate {s : State} {args : List Byte} {g : Gate} (hl : args.length = 3) (hg : byteAt args 0 = g.1) :
    s.handleForceGate args = if (s.chan g).state = .hold .stall ∨ (s.chan g).state = .hold .silence then
        (s.force g (fieldAt args 1 2)).grant []
      else s.deny .refusedState := by
  unfold State.handleForceGate
  rw [if_pos hl, hg, toFin?_val]

/-- What is granted to a gate whose channel entered IDLE before its event. -/
theorem granted_idle {s u : State} {p : List Byte} {g : Gate} {kind : GangCause} (hi : (u.chan g).state = .idle)
    (hu : SameBut [.chans, .portF, .report] s.reserve u) :
    let t := ((u.chanEvent kind g).placeReply p .done []).finish
    ((t.chan g).state = .idle ∨ (t.chan g).state.isStep = true ∨ (s.active.gangOf g ≠ none ∧ (t.chan g).state = .hold .gang))
      ∧ t.requests g = u.requests g ∧ SameBut [.chans, .gangs, .portF, .portD, .report, .inbox, .told] s t := by
  intro t
  have hactive : u.active = s.active := active_of_sameBut (s := s.reserve) (by decide) hu
  have hchan : t.chan g = (u.chanEvent kind g).chan g := answered_chan ..
  refine ⟨?_, ?_, ?_⟩
  · rw [hchan, ← hactive]
    exact chanEvent_idle hi kind
  · show ((t.chan g).governed, (t.chan g).source, (t.chan g).clamp) = _
    rw [hchan]
    exact congrFun (blind_requests.chanEvent u kind g) g
  · exact ((((reserve_sameBut s).mono (by decide)).trans (hu.mono (by decide))).trans
      ((sameBut_of_quiet fun q => q.chanEvent u kind g).mono (by decide))).trans ((answered_sameBut _ _ _ _).mono (by decide))

/-- Settles O50: by the request, the gate's number and the state of its channel. -/
theorem gateRequestsEndHolds : Obligations.GateRequestsEndHolds := by
  refine ⟨fun s p b hs ha hargs => ⟨fun hb => ?_, fun g hg => ⟨fun hn => ?_, fun hst => ?_⟩⟩,
    fun s p hs ha hl => ⟨fun hb => ?_, fun g hg => ⟨fun hn hn' => ?_, fun hst => ?_⟩⟩⟩
  · refine row_refused hs ha rfl nofun ?_ (.inl nofun)
    show s.reserve.handleResumeGate (reqArgs p) = _
    unfold State.handleResumeGate
    rw [hargs, oneByte_singleton, Option.bind_some, toFin?_none_of_le (by omega)]
    rfl
  · exact row_refused hs ha rfl nofun ((handleResumeGate_gate hargs hg).trans (if_neg hn)) (.inl nofun)
  · obtain ⟨hrow, hrep⟩ := row_of_answer (row := fun r => r == .resumeGate) hs ha rfl nofun nofun
      ((handleResumeGate_gate (s := s.reserve) hargs hg).trans (if_pos hst))
    have hidle : ((s.reserve.enter g .idle).chan g).state = .idle := by
      rw [enter_chan_self]
      rfl
    obtain ⟨hstate, hreq, hsame⟩ := granted_idle (p := p) (kind := .other) hidle ((enter_sameBut s.reserve g .idle).mono (by decide))
    have hkeep : (s.reserve.enter g .idle).requests g = s.requests g := congrFun (blind_requests.enter s.reserve g .idle) g
    rw [hkeep] at hreq
    simp only [State.requests, Prod.mk.injEq] at hreq
    obtain ⟨hgov, hsrc, hclamp⟩ := hreq
    refine ⟨_, hrow, hrep, hstate, fun hgang hw => ?_, hgov, hsrc, hclamp, hsame⟩
    rw [answered_chan, chanEvent_alone (show (s.reserve.enter g .idle).active.gangOf g = none by
      rw [active_of_sameBut (by decide) (enter_sameBut s.reserve g .idle)]; exact hgang), judge_chan_no_work ?_ g]
    · exact hidle
    · have hc := enter_chan_self s.reserve g .idle
      unfold State.hasWork at hw ⊢
      rw [hc]
      have hact : (s.reserve.enter g .idle).active = s.active :=
        active_of_sameBut (s := s.reserve) (by decide) (enter_sameBut s.reserve g .idle)
      have hentry : (s.reserve.enter g .idle).gateEntry g = s.gateEntry g := congrArg (fun x => Tab.get x g) (congrArg Plan.gates hact)
      rw [hentry]
      exact hw
  · refine row_refused hs ha rfl nofun ?_ (.inl nofun)
    show s.reserve.handleForceGate (reqArgs p) = _
    unfold State.handleForceGate
    rw [if_pos hl, toFin?_none_of_le (by omega)]
    rfl
  · exact row_refused hs ha rfl nofun ((handleForceGate_gate hl hg).trans (if_neg fun h => h.elim hn hn')) (.inl nofun)
  · obtain ⟨hrow, hrep⟩ := row_of_answer (row := fun r => r == .forceGate) hs ha rfl nofun nofun
      ((handleForceGate_gate (s := s.reserve) hl hg).trans (if_pos hst))
    rw [force_supersede] at hrow hrep
    have hforced : (s.reserve.forced g (fieldAt (reqArgs p) 1 2)).chan g = ((s.chan g).given
        (some (min (fieldAt (reqArgs p) 1 2) 1000)) .force (if 1000 < fieldAt (reqArgs p) 1 2 then .range else .none) false).inState
          .idle := by
      unfold State.forced
      rw [enter_chan_self, chan_setChan_self]
      rfl
    have hchan : ((s.reserve.forced g (fieldAt (reqArgs p) 1 2)).supersede g).chan g = _ :=
      (chan_of_sameBut (by decide) (supersede_sameBut _ g) g).trans hforced
    have hsame : SameBut [.chans, .portF, .report] s.reserve ((s.reserve.forced g (fieldAt (reqArgs p) 1 2)).supersede g) := by
      refine SameBut.trans ?_ ((supersede_sameBut _ _).mono (by decide))
      exact ((setChan_sameBut _ _ _).mono (by decide)).trans ((enter_sameBut _ _ _).mono (by decide))
    obtain ⟨hstate, hreq, hall⟩ := granted_idle (p := p) (kind := .request) (by rw [hchan]; rfl) hsame
    unfold State.requests at hreq
    rw [hchan] at hreq
    simp only [Prod.mk.injEq] at hreq
    obtain ⟨hgov, hsrc, hclamp⟩ := hreq
    exact ⟨_, hrow, hrep, hstate, hgov, hsrc, hclamp, hall⟩

/-! ### SET_MEMBER_OUT -/

theorem contains_outWith {members out : List Gate} {g h : Gate} {value : Bool} :
    (outWith members out g value).contains h = (members.contains h && if h = g then value else out.contains h) := by
  unfold outWith
  rw [Bool.eq_iff_iff, List.contains_iff_mem, List.mem_filter, Bool.and_eq_true, List.contains_iff_mem]

/-- The gang with the mark written, and the member freed of its hold (R91). -/
def State.marked (s : State) (c : GangId) (g : Gate) (value : Bool) : State :=
  if value then (s.setGang c { s.gang c with out := outWith (s.members c) (s.gang c).out g value }).freeMembers [g]
  else s.setGang c { s.gang c with out := outWith (s.members c) (s.gang c).out g value }

theorem changeOut_eq (s : State) (c : GangId) (g : Gate) (value : Bool) :
    s.changeOut c g value = (s.marked c g value).gangEvent c .other g := rfl

theorem marked_sameBut (s : State) (c : GangId) (g : Gate) (value : Bool) :
    SameBut [.chans, .gangs, .portF] s (s.marked c g value) := by
  unfold State.marked
  split
  · exact ((setGang_sameBut _ _ _).mono (by decide)).trans ((freeMembers_sameBut _ _).mono (by decide))
  · exact (setGang_sameBut _ _ _).mono (by decide)

theorem marked_gang (s : State) (c : GangId) (g : Gate) (value : Bool) :
    (s.marked c g value).gang c = { s.gang c with out := outWith (s.members c) (s.gang c).out g value } := by
  unfold State.marked
  split
  · exact (gang_of_sameBut (by decide) (freeMembers_sameBut _ _) c).trans (gang_setGang_self ..)
  · exact gang_setGang_self ..

/-- A mark set frees the member from HOLD with cause GANG. -/
theorem marked_chan_out (s : State) (c : GangId) (g : Gate) : (s.marked c g true).chan g
    = if (s.chan g).state = .hold .gang then (s.chan g).inState (s.afterGangHold g) else s.chan g := by
  unfold State.marked
  rw [if_pos rfl, freeMembers_chan]
  simp only [List.mem_singleton, true_and]
  rfl

theorem readMemberOut_cases {gate out : Byte} :
    (47 < gate.toNat ∨ 1 < out.toNat → readMemberOut [gate, out] = none)
      ∧ ∀ (g : Gate) (value : Bool), gate.toNat = g.1 → out.toNat = value.toNat → readMemberOut [gate, out] = some (g, value) := by
  refine ⟨fun h => ?_, fun g value hg hv => ?_⟩
  · unfold readMemberOut
    simp only [List.map_cons, List.map_nil]
    split
    · next hx =>
      simp only [List.cons.injEq, and_true] at hx
      rw [toFin?_none_of_le (by omega)]
      rfl
    · next hx =>
      simp only [List.cons.injEq, and_true] at hx
      rw [toFin?_none_of_le (by omega)]
      rfl
    · rfl
  · unfold readMemberOut
    simp only [List.map_cons, List.map_nil]
    rw [hg, hv]
    cases value
    · exact congrArg (Option.map fun g => (g, false)) (toFin?_val g)
    · exact congrArg (Option.map fun g => (g, true)) (toFin?_val g)

/-- A member that is out neither enters its gang's hold nor takes its turn. -/
theorem gangEvent_out {s : State} {c : GangId} (hp : (s.gangEntry c).isPresent = true) {g : Gate} (ho : (s.gang c).isOut g = true)
    (hstep : (s.chan g).state.isStep = false) (kind : GangCause) (cause : Gate) :
    (((s.gangEvent c kind cause).gang c).holder ≠ some g)
      ∧ ((s.chan g).state = .idle ∨ (s.chan g).state = .hold .silence →
          ((s.gangEvent c kind cause).chan g).state = (s.chan g).state) := by
  have hnotin : g ∉ s.holdable c := fun h => by rw [(mem_holdable.mp h).2.1] at ho; cases ho
  have hjudged : ((s.judgeHold c cause).chan g).state.isStep = false := by
    by_cases hb : s.blockers c = []
    · by_cases hg : (s.chan g).state = .hold .gang
      · cases hh : (s.gang c).hold with
        | true =>
          obtain ⟨v, hv⟩ := releaseGang_eq s c cause
          rw [judgeHold_releases hh hb, hv, chan_notify, freedState_chan]
          split
          · unfold State.afterGangHold
            split <;> rfl
          · exact hstep
        | false =>
          rw [judgeHold_free hh hb]
          exact hstep
      · rw [(judgeHold_unblocked hb cause).2 g hg]
        exact hstep
    · cases hh : (s.gang c).hold with
      | true =>
        rw [judgeHold_holds hh hb, holdAll_chan, if_neg hnotin]
        exact hstep
      | false =>
        obtain ⟨b, bs, hbs⟩ := List.exists_cons_of_ne_nil hb
        rw [judgeHold_becomes hh hbs, becomeHeld_loud, chan_notify, heldState_chan, if_neg hnotin]
        split
        · rfl
        · exact hstep
  have hchecked : ((s.checked c kind cause).gang c).holder ≠ some g := fun hh => by
    rcases checked_holder hh with ⟨_, hs⟩ | ⟨_, _, hno, _⟩
    · rw [checked_chan, hjudged] at hs
      cases hs
    · rw [ho] at hno
      cases hno
  have hpick : (s.checked c kind cause).scanPick c ≠ some g := fun h => by
    have hno := (scanPick_free h).2.2.2.1
    unfold Gang.isOut at hno ho
    rw [(checked_kept s c kind cause).out, ho] at hno
    cases hno
  refine ⟨?_, fun hst => ?_⟩
  · rw [gangEvent_present hp]
    rcases scan_cases (s.checked c kind cause) c (some cause) with ⟨m, hm, h⟩ | ⟨_, h | ⟨i, _, _, h⟩⟩ <;> rw [h]
    · rw [judge_gang, gang_setGang_self]
      exact fun he => hpick (hm.trans he)
    · exact hchecked
    · rw [judge_gang]
      exact hchecked
  · have hkeep : (s.judgeHold c cause).chan g = s.chan g := by
      by_cases hb : s.blockers c = []
      · refine (judgeHold_unblocked hb cause).2 g ?_
        rcases hst with h | h <;> rw [h] <;> nofun
      · refine (judgeHold_blocked hb cause).2.2 g hnotin ?_
        rcases hst with h | h <;> rw [h] <;> rfl
    rw [gangEvent_present hp]
    rcases scan_chan_cases (s.checked c kind cause) c (some cause) g with h | ⟨h | ⟨_, h⟩, _⟩
    · rw [h, checked_chan, hkeep]
    · exact absurd h hpick
    · exact absurd h hchecked

/-- The governed targets and measured openings of the channels. -/
def State.openings (s : State) : Gate → Option Nat × Option Nat := fun h => ((s.chan h).governed, (s.chan h).measured)

/-- No move of a channel changes them. -/
theorem blind_openings : Blind State.openings where
  move s g st start dir tag pend := by
    funext h
    unfold State.openings
    simp only [chan_setChan]
    split
    · next he => subst he; rfl
    · rfl
  gang _ _ _ := rfl
  portF _ _ _ _ _ := rfl
  report _ _ := rfl
  own _ _ := rfl

theorem handleSetMemberOut_gate {s : State} {args : List Byte} {g : Gate} {value : Bool} {c : GangId}
    (hr : readMemberOut args = some (g, value)) (hc : s.active.gangOf g = some c) : s.handleSetMemberOut args
      = if (value && (s.gang c).holder == some g && (s.chan g).state.isStep) = true then s.deny .refusedState
        else if (s.gang c).isOut g = value then s.grant [] else (s.changeOut c g value).grant [] := by
  unfold State.handleSetMemberOut
  rw [hr]
  simp only
  rw [hc]

/-- Settles O51: by the bytes, the gang, the turn and the mark. -/
theorem setMemberOutChangesTheMark : Obligations.SetMemberOutChangesTheMark := by
  intro s p gate out hs ha hargs
  have hrefused : ∀ {status}, s.reserve.handleSetMemberOut (reqArgs p) = { state := s.reserve, status := status, results := [] } →
      exec .setMemberOut s = .next (s.answered p status []) := fun h => row_refused hs ha rfl nofun h (.inl nofun)
  refine ⟨fun hb => hrefused ?_, fun g value hg hv => ?_⟩
  · unfold State.handleSetMemberOut
    rw [hargs, readMemberOut_cases.1 hb]
    rfl
  have hread : readMemberOut (reqArgs p) = some (g, value) := by
    rw [hargs]
    exact readMemberOut_cases.2 g value hg hv
  refine ⟨fun hc => hrefused ?_, fun c hc => ⟨fun hval hh hst => hrefused ?_, fun hfree => ⟨fun ho => hrefused ?_, fun ho => ?_⟩⟩⟩
  · unfold State.handleSetMemberOut
    rw [hread]
    simp only
    rw [show s.reserve.active.gangOf g = none from hc]
    rfl
  · refine (handleSetMemberOut_gate (s := s.reserve) hread hc).trans (if_pos ?_)
    rw [hval, Bool.true_and, Bool.and_eq_true, beq_iff_eq]
    exact ⟨hh, hst⟩
  all_goals
    have hgo : ¬ (value && (s.gang c).holder == some g && (s.chan g).state.isStep) = true := by
      simp only [Bool.and_eq_true, beq_iff_eq, not_and, Bool.not_eq_true]
      rintro ⟨hval, hh⟩
      rcases hfree with h | h | h
      · rw [hval] at h; cases h
      · exact absurd hh h
      · exact h
  · exact ((handleSetMemberOut_gate (s := s.reserve) hread hc).trans (if_neg hgo)).trans (if_pos ho)
  · obtain ⟨hrow, hrep⟩ := row_of_answer (row := fun r => r == .setMemberOut) hs ha rfl nofun nofun
      (((handleSetMemberOut_gate (s := s.reserve) hread hc).trans (if_neg hgo)).trans (if_neg ho))
    rw [changeOut_eq] at hrow hrep
    have hmarked := marked_sameBut s.reserve c g value
    have hp : ((s.reserve.marked c g value).gangEntry c).isPresent = true := by
      unfold State.gangEntry
      rw [active_of_sameBut (by decide) hmarked]
      exact present_of_gangOf hc
    have hmark : ∀ h, (((s.reserve.marked c g value).gangEvent c .other g).gang c).isOut h
        = ((s.members c).contains h && if h = g then value else (s.gang c).isOut h) := fun h => by
      unfold Gang.isOut
      rw [(gangEvent_kept _ c .other g).out, marked_gang]
      exact contains_outWith
    have hmember : (s.members c).contains g = true := List.contains_iff_mem.mpr (mem_of_gangOf hc)
    have hset : value = true → (((s.reserve.marked c g value).gang c).isOut g = true) := fun hval => by
      unfold Gang.isOut
      rw [marked_gang]
      refine contains_outWith.trans ?_
      rw [if_pos rfl, hval]
      exact (Bool.and_true _).trans hmember
    refine ⟨_, hrow, hrep, ?_, fun h hm hne => ?_, fun hval hst => ?_, fun hval hh => ?_, fun h => ?_, ?_⟩
    · rw [answered_gang, hmark, if_pos rfl, hmember, Bool.true_and]
    · rw [answered_gang, hmark, if_neg hne, List.contains_iff_mem.mpr hm, Bool.true_and]
    · subst hval
      have hfreed : ((s.reserve.marked c g true).chan g).state = s.afterGangHold g := by
        rw [marked_chan_out, if_pos (show (s.reserve.chan g).state = .hold .gang from hst)]
        rfl
      have hplace : s.afterGangHold g = .idle ∨ s.afterGangHold g = .hold .silence := by
        unfold State.afterGangHold
        split
        · exact .inl rfl
        · exact .inr rfl
      rw [answered_chan, (gangEvent_out hp (hset rfl) ?_ .other g).2 (by rw [hfreed]; exact hplace), hfreed]
      · rfl
      · rw [hfreed]
        rcases hplace with h | h <;> rw [h] <;> rfl
    · subst hval
      rw [answered_gang]
      refine (gangEvent_out hp (hset rfl) ?_ .other g).1
      have hstep : (s.chan g).state.isStep = false := hfree.resolve_left nofun |>.resolve_left (fun h => h hh)
      rw [marked_chan_out]
      split
      · show (s.reserve.afterGangHold g).isStep = false
        unfold State.afterGangHold
        split <;> rfl
      · exact hstep
    · rw [answered_chan]
      have hmk : (s.reserve.marked c g value).openings = s.openings := by
        unfold State.marked
        split
        · exact (blind_openings.freeMembers _ _).trans (blind_openings.gang _ _ _)
        · exact blind_openings.gang _ _ _
      have hkeep := congrFun ((blind_openings.gangEvent _ c .other g).trans hmk) h
      simp only [State.openings, Prod.mk.injEq] at hkeep
      exact hkeep
    · exact ((((reserve_sameBut s).mono (by decide)).trans (hmarked.mono (by decide))).trans
        ((sameBut_of_quiet fun q => q.gangEvent _ c .other g).mono (by decide))).trans ((answered_sameBut _ _ _ _).mono (by decide))

end Sys2Proof.Machine
end

section
/-! POSITION frames without flag: the return of a channel and the confirmation of an increment (R8, R14, R83). -/

namespace Sys2Proof.Machine

/-! ### A gang's event, blocked and not -/

theorem blockers_congr {s t : State} {c : GangId} (ha : t.active = s.active) (ho : (t.gang c).out = (s.gang c).out)
    (hb : ∀ m, (t.chan m).state.blocks = (s.chan m).state.blocks) : t.blockers c = s.blockers c := by
  unfold State.blockers State.members Gang.isOut
  rw [ha, ho]
  exact congrArg (List.filter · _) (funext fun m => by rw [hb])

theorem judgeHold_holder_none {s : State} {c : GangId} (h : (s.gang c).holder = none) (cause : Gate) :
    ((s.judgeHold c cause).gang c).holder = none := by
  by_cases hb : s.blockers c = []
  · rw [(judgeHold_unblocked hb cause).1]
    exact h
  · cases hh : (s.gang c).hold with
    | true =>
      rw [judgeHold_holds hh hb, gang_of_sameBut (by decide) (holdAll_sameBut _ _)]
      exact h
    | false =>
      obtain ⟨b, bs, hbs⟩ := List.exists_cons_of_ne_nil hb
      rw [judgeHold_becomes hh hbs, becomeHeld_loud, gang_notify, heldState_gang, if_pos rfl]
      show (s.gang c).holder.filter _ = none
      rw [h]
      rfl

theorem checked_holder_none {s : State} {c : GangId} (h : (s.gang c).holder = none) (kind : GangCause) (cause : Gate) :
    ((s.checked c kind cause).gang c).holder = none := by
  cases hc : ((s.checked c kind cause).gang c).holder with
  | none => rfl
  | some i =>
    have hj := judgeHold_holder_none h cause
    rcases checked_holder hc with ⟨hi, _⟩ | ⟨hi, _⟩ <;> rw [hj] at hi <;> cases hi

/-- Where the scan picks no member and no member holds the turn, it changes nothing. -/
theorem scan_rests {s : State} {c : GangId} (hp : s.scanPick c = none) (hh : (s.gang c).holder = none) (cause : Option Gate) :
    s.scan c cause = s := by
  rcases scan_cases s c cause with ⟨m, hm, _⟩ | ⟨_, h | ⟨i, _, hi, _⟩⟩
  · rw [hp] at hm; cases hm
  · exact h
  · rw [hh] at hi; cases hi

/-- A blocked gang ends its event held; its members that could move are in its hold, and no turn is granted. -/
theorem gangEvent_blocked {s : State} {c : GangId} (hp : (s.gangEntry c).isPresent = true) (hb : s.blockers c ≠ [])
    (kind : GangCause) (cause : Gate) : ((s.gangEvent c kind cause).gang c).hold = true
      ∧ (∀ m ∈ s.holdable c, (s.gangEvent c kind cause).chan m = (s.chan m).inState (.hold .gang))
      ∧ ((s.gang c).holder = none → ((s.gangEvent c kind cause).gang c).holder = none) := by
  obtain ⟨hhold, hin, _⟩ := judgeHold_blocked hb cause
  have hchecked : ((s.checked c kind cause).gang c).hold = true := (checked_hold ..).trans hhold
  refine ⟨?_, fun m hm => ?_, fun hn => ?_⟩
  · rw [gangEvent_present hp]
    exact (scan_kept ..).2.trans hchecked
  · rw [gangEvent_chan_of_busy hp kind (by rw [hin m hm]; nofun), hin m hm]
  · rw [gangEvent_present hp, scan_rests (scanPick_of_hold hchecked) (checked_holder_none hn kind cause)]
    exact checked_holder_none hn kind cause

/-- In a gang that nothing blocks a channel that is busy outside the gang's hold stays. -/
theorem gangEvent_unblocked_busy {s : State} {c : GangId} (hb : s.blockers c = []) {g : Gate} (hg : (s.chan g).state ≠ .hold .gang)
    (hi : (s.chan g).state ≠ .idle) (kind : GangCause) (cause : Gate) : (s.gangEvent c kind cause).chan g = s.chan g := by
  by_cases hp : (s.gangEntry c).isPresent = true
  · have hk := (judgeHold_unblocked hb cause).2 g hg
    rw [gangEvent_chan_of_busy hp kind (by rw [hk]; exact hi), hk]
  · rw [State.gangEvent, if_neg hp]

/-- In a gang that nothing blocks a channel in IDLE ends the event in IDLE or in STEP. -/
theorem gangEvent_unblocked_idle {s : State} {c : GangId} (hb : s.blockers c = []) {g : Gate} (hi : (s.chan g).state = .idle)
    (kind : GangCause) (cause : Gate) :
    ((s.gangEvent c kind cause).chan g).state = .idle ∨ ((s.gangEvent c kind cause).chan g).state.isStep = true := by
  by_cases hp : (s.gangEntry c).isPresent = true
  · have hk := (judgeHold_unblocked hb cause).2 g (by rw [hi]; nofun)
    rw [gangEvent_present hp]
    rcases scan_chan_cases (s.checked c kind cause) c (some cause) g with h | ⟨_, target, _, h⟩ <;> rw [h]
    · rw [checked_chan, hk]
      exact .inl hi
    · exact .inr rfl
  · rw [State.gangEvent, if_neg hp]
    exact .inl hi

theorem hasWork_congr {s t : State} {g : Gate} (hc : (t.chan g).governed = (s.chan g).governed)
    (hm : (t.chan g).measured = (s.chan g).measured) (ha : t.active = s.active) : t.hasWork g = s.hasWork g := by
  unfold State.hasWork State.gateEntry
  rw [hc, hm, ha]

/-- A channel in IDLE without work stays there, unless its gang is blocked and takes it into its hold. -/
theorem gangEvent_idle_no_work {s : State} {g : Gate} (hi : (s.chan g).state = .idle) (hw : s.hasWork g = false) (c : GangId)
    (kind : GangCause) (cause : Gate) (hfree : s.blockers c = [] ∨ g ∉ s.holdable c) :
    ((s.gangEvent c kind cause).chan g).state = .idle := by
  by_cases hp : (s.gangEntry c).isPresent = true
  · have hk : (s.judgeHold c cause).chan g = s.chan g := by
      by_cases hb : s.blockers c = []
      · exact (judgeHold_unblocked hb cause).2 g (by rw [hi]; nofun)
      · exact (judgeHold_blocked hb cause).2.2 g (hfree.resolve_left hb) (by rw [hi]; rfl)
    have hkc : (s.checked c kind cause).chan g = s.chan g := (checked_chan ..).trans hk
    rw [gangEvent_present hp]
    rcases scan_chan_cases (s.checked c kind cause) c (some cause) g with h | ⟨_, target, h, _⟩
    · rw [h, hkc]
      exact hi
    · have hact : (s.checked c kind cause).active = s.active :=
        (active_of_sameBut (by decide) (checked_sameBut s c kind cause)).trans (quiet_active.judgeHold s c cause)
      rw [workTarget_none ((hasWork_congr (by rw [hkc]) (by rw [hkc]) hact).trans hw)] at h
      cases h
  · rw [State.gangEvent, if_neg hp]
    exact hi

/-! ### The frame's parts -/

/-- The position of a channel written (R4). -/
def State.placed (s : State) (g : Gate) (o : Nat) : State := s.setChan g ((s.chan g).withPosition o)

/-- What the state before an event and after a write of one channel share. -/
theorem placed_sameBut (s : State) (g : Gate) (o : Nat) : SameBut [.chans] s (s.placed g o) := setChan_sameBut _ _ _

theorem placed_chan (s : State) (g : Gate) (o : Nat) (h : Gate) :
    (s.placed g o).chan h = if h = g then (s.chan g).withPosition o else s.chan h := chan_setChan ..

theorem placed_chan_self (s : State) (g : Gate) (o : Nat) : (s.placed g o).chan g = (s.chan g).withPosition o := chan_setChan_self ..

theorem placed_chan_ne (s : State) {g h : Gate} (o : Nat) (hne : h ≠ g) : (s.placed g o).chan h = s.chan h := chan_setChan_ne _ _ hne

/-- A frame without flag: the position, what it brings back or confirms, and the channel's event. -/
theorem takePosition_clear {s : State} {g : Gate} {o : Nat} {flags : Byte} (hu : (s.chan g).state ≠ .unbound)
    (hf : severest flags = .clear) : ∃ kind, s.takePosition g o flags
      = ((s.placed g (min o 1000)).positionClear g (s.chan g) (min o 1000)).chanEvent kind g := by
  unfold State.takePosition
  simp only
  rw [if_neg hu, hf]
  exact ⟨_, rfl⟩

/-- From a quiet state a POSITION frame without flag has the channels, gangs and own frames of its channel's event. -/
theorem exec_clear {s : State} (hq : s.quiet) (dest : Byte) {p : List Byte} {g : Gate} (hl : p.length = 4) (hg : byteAt p 0 = g.1)
    (hu : (s.chan g).state ≠ .unbound) (hf : severest (p.getD 3 0#8) = .clear) :
    ∃ kind t, exec (.position dest p) s = .next t
      ∧ let v := (((s.countF PortCounts.addReceived).placed g (min (fieldAt p 1 2) 1000)).positionClear g (s.chan g)
          (min (fieldAt p 1 2) 1000)).chanEvent kind g
        (∀ h, t.chan h = v.chan h) ∧ (∀ c, t.gang c = v.gang c) ∧ t.portD.own = v.portD.own := by
  obtain ⟨kind, hk⟩ := takePosition_clear (s := s.countF PortCounts.addReceived) (g := g) (o := fieldAt p 1 2) hu hf
  refine ⟨kind, _, exec_position hq dest hl hg, fun h => ?_, fun c => ?_, ?_⟩
  · rw [hk]
    refine (congrArg (fun x => Tab.get x h) (finish_chans _)).trans ?_
    exact chan_of_sameBut (by decide) (forwardUp_sameBut _ _) h
  · rw [hk]
    exact (gang_of_sameBut (by decide) (finish_sameBut _) c).trans (gang_of_sameBut (by decide) (forwardUp_sameBut _ _) c)
  · rw [hk, finish_portD, forwardUp_own]
    rfl

/-! ### Confirmations -/

theorem positionClear_step {s : State} {g : Gate} {before : Channel} {o target timer : Nat} (h : before.state = .step target timer) :
    s.positionClear g before o = if max o target - min o target ≤ (s.gateEntry g).deadband then s.confirm g else s := by
  unfold State.positionClear
  rw [h]

/-- What a confirmation leaves outside its channel: the plan and the other channels. -/
theorem confirm_frame (s : State) (g : Gate) : (s.confirm g).active = s.active ∧ (∀ h, h ≠ g → (s.confirm g).chan h = s.chan h)
    ∧ ∀ c, ((s.confirm g).gang c).out = (s.gang c).out := by
  have hrec : ∀ (c : GangId) (r : Gang) (st : ChanState), r.out = (s.gang c).out →
      ((s.setGang c r).enter g st).active = s.active ∧ (∀ h, h ≠ g → ((s.setGang c r).enter g st).chan h = s.chan h)
        ∧ ∀ j, (((s.setGang c r).enter g st).gang j).out = (s.gang j).out := fun c r st hr => by
    refine ⟨quiet_active.enter _ _ _, fun h hne => (enter_chan_ne _ _ hne).trans rfl, fun j => ?_⟩
    rw [gang_of_sameBut (by decide) (enter_sameBut _ _ _), gang_setGang]
    split
    · next hj => rw [hr, hj]
    · rfl
  have hplain : ∀ st, (s.enter g st).active = s.active ∧ (∀ h, h ≠ g → (s.enter g st).chan h = s.chan h)
      ∧ ∀ j, ((s.enter g st).gang j).out = (s.gang j).out := fun st =>
    ⟨quiet_active.enter _ _ _, fun h hne => enter_chan_ne _ _ hne, fun j => by
      rw [gang_of_sameBut (by decide) (enter_sameBut _ _ _)]⟩
  unfold State.confirm
  simp only
  split
  · split
    · exact hrec _ _ _ rfl
    · split
      · exact hrec _ _ _ rfl
      · unfold State.confirmMember
        simp only
        split
        · exact hrec _ _ _ rfl
        · exact hrec _ _ _ rfl
  · split
    · exact hplain _
    · split
      · exact hplain _
      · exact hplain _

theorem confirm_held {s : State} {g : Gate} {c : GangId} (hc : s.active.gangOf g = some c) (hh : (s.gang c).hold = true) :
    s.confirm g = (s.setGang c { s.gang c with holder := (s.gang c).holder.filter fun h => h != g }).enter g (.hold .gang) := by
  unfold State.confirm
  rw [hc]
  exact if_pos hh

theorem confirm_pending {s : State} {g : Gate} {c : GangId} (hc : s.active.gangOf g = some c) (hh : (s.gang c).hold = false)
    (hp : (s.chan g).silencePending = true) :
    s.confirm g = (s.setGang c { s.gang c with holder := (s.gang c).holder.filter fun h => h != g }).enter g (.hold .silence) := by
  unfold State.confirm
  rw [hc]
  simp only
  rw [if_neg (by rw [hh]; decide), if_pos hp]

theorem confirm_member {s : State} {g : Gate} {c : GangId} (hc : s.active.gangOf g = some c) (hh : (s.gang c).hold = false)
    (hp : (s.chan g).silencePending = false) : s.confirm g = s.confirmMember c g := by
  unfold State.confirm
  rw [hc]
  simp only
  rw [if_neg (by rw [hh]; decide), if_neg (by rw [hp]; decide)]

/-- The gang's record with its dwell begun by the member confirmed (R83). -/
def State.dwelling (s : State) (c : GangId) (g : Gate) : Gang :=
  { s.gang c with
    holder := none, lastMover := some g
    dwell := some ⟨(s.chan g).dwellDir.getD .up,
      dwellLength (s.chan g).dwellDir (s.gangEntry c).dwellUp (s.gangEntry c).dwellDown, g⟩ }

theorem confirmMember_dwell {s : State} {g : Gate} {c : GangId}
    (hn : dwellLength (s.chan g).dwellDir (s.gangEntry c).dwellUp (s.gangEntry c).dwellDown ≠ 0) :
    s.confirmMember c g = (s.setGang c (s.dwelling c g)).enter g (.dwell none) := if_neg hn

theorem confirmMember_idle {s : State} {g : Gate} {c : GangId}
    (hn : dwellLength (s.chan g).dwellDir (s.gangEntry c).dwellUp (s.gangEntry c).dwellDown = 0) :
    s.confirmMember c g = (s.setGang c { s.gang c with holder := none, lastMover := some g }).enter g .idle := if_pos hn

theorem confirm_alone {s : State} {g : Gate} (hc : s.active.gangOf g = none) : s.confirm g
    = if (s.chan g).silencePending then s.enter g (.hold .silence)
      else if dwellLength (s.chan g).dwellDir (s.gateEntry g).dwellUp (s.gateEntry g).dwellDown = 0 then s.enter g .idle
      else s.enter g (.dwell (some (dwellLength (s.chan g).dwellDir (s.gateEntry g).dwellUp (s.gateEntry g).dwellDown))) := by
  unfold State.confirm
  rw [hc]

/-- After a confirmation the gang's blockers are those of before: neither STEP nor what follows it blocks. -/
theorem confirm_blockers {s : State} {g : Gate} {c : GangId} (hs : (s.chan g).state.blocks = false)
    (hb : ((s.confirm g).chan g).state.blocks = false) : (s.confirm g).blockers c = s.blockers c := by
  obtain ⟨ha, hothers, hout⟩ := confirm_frame s g
  refine blockers_congr ha (hout c) fun m => ?_
  by_cases hm : m = g
  · rw [hm, hb, hs]
  · rw [hothers m hm]

theorem setGang_enter_chan (s : State) (c : GangId) (r : Gang) (g : Gate) (st : ChanState) :
    ((s.setGang c r).enter g st).chan g = (s.chan g).inState st := enter_chan_self ..

theorem setGang_enter_gang (s : State) (c : GangId) (r : Gang) (g : Gate) (st : ChanState) :
    ((s.setGang c r).enter g st).gang c = r :=
  (gang_of_sameBut (by decide) (enter_sameBut _ _ _) c).trans (gang_setGang_self ..)

/-- The event of a confirmed member's gang, by the gang's hold, the pending mark and the dwell (R14, R83). -/
theorem confirm_event {s : State} {g : Gate} {c : GangId} (hc : s.active.gangOf g = some c) (hs : (s.chan g).state.blocks = false)
    (kind : GangCause) : let v := (s.confirm g).gangEvent c kind g
    ((s.gang c).hold = true → s.blockers c ≠ [] → (s.gang c).holder = some g →
        (v.chan g).state = .hold .gang ∧ (v.chan g).silencePending = false ∧ (v.gang c).holder = none
          ∧ (v.gang c).lastMover = (s.gang c).lastMover)
      ∧ ((s.gang c).hold = false → s.blockers c = [] → (s.chan g).silencePending = true →
        (v.chan g).state = .hold .silence ∧ (v.chan g).silencePending = false ∧ (v.gang c).lastMover = (s.gang c).lastMover)
      ∧ ((s.gang c).hold = false → s.blockers c = [] → (s.chan g).silencePending = false →
        ∀ n, n = dwellLength (s.chan g).dwellDir (s.gangEntry c).dwellUp (s.gangEntry c).dwellDown → 0 < n →
        (v.chan g).state = .dwell none ∧ (v.gang c).holder = none ∧ (v.gang c).lastMover = some g
          ∧ (v.gang c).dwell = some { dir := (s.chan g).dwellDir.getD .up, remaining := n, member := g })
      ∧ ((s.gang c).hold = false → s.blockers c = [] → (s.chan g).silencePending = false →
        dwellLength (s.chan g).dwellDir (s.gangEntry c).dwellUp (s.gangEntry c).dwellDown = 0 →
        ((v.chan g).state = .idle ∨ (v.chan g).state.isStep = true) ∧ (v.gang c).lastMover = some g) := by
  have hp : ((s.confirm g).gangEntry c).isPresent = true := by
    unfold State.gangEntry
    rw [(confirm_frame s g).1]
    exact present_of_gangOf hc
  have hlast := (gangEvent_kept (s.confirm g) c kind g).lastMover
  refine ⟨fun hh hb hholder => ?_, fun hh hb hpend => ?_, fun hh hb hpend n hn hpos => ?_, fun hh hb hpend hn => ?_⟩
  · rw [confirm_held hc hh] at hp hlast ⊢
    have hchan := setGang_enter_chan s c { s.gang c with holder := (s.gang c).holder.filter fun h => h != g } g (.hold .gang)
    have hgang := setGang_enter_gang s c { s.gang c with holder := (s.gang c).holder.filter fun h => h != g } g (.hold .gang)
    have hblock := confirm_blockers (c := c) hs (by rw [confirm_held hc hh, hchan]; rfl)
    rw [confirm_held hc hh] at hblock
    obtain ⟨hhold, _, hnone⟩ := gangEvent_blocked hp (by rw [hblock]; exact hb) kind g
    have hself := (judgeHold_blocked (c := c) (by rw [hblock]; exact hb) g).2.2 g
      (fun hm => by
        have := (mem_holdable.mp hm).2.2
        rw [hchan] at this
        rcases this with h | h <;> cases h)
      (by rw [hchan]; rfl)
    have hkeep := gangEvent_chan_of_busy hp kind (by rw [hself, hchan]; nofun)
    rw [hself, hchan] at hkeep
    rw [hgang] at hlast hnone
    refine ⟨by rw [hkeep]; rfl, by rw [hkeep]; exact inState_of_ne_step rfl, hnone ?_, hlast⟩
    show (s.gang c).holder.filter _ = none
    rw [hholder]
    simp
  · have hchan := setGang_enter_chan s c { s.gang c with holder := (s.gang c).holder.filter fun h => h != g } g (.hold .silence)
    have hgang := setGang_enter_gang s c { s.gang c with holder := (s.gang c).holder.filter fun h => h != g } g (.hold .silence)
    rw [← confirm_pending hc hh hpend] at hchan hgang
    have hblock := confirm_blockers (c := c) hs (by rw [hchan]; rfl)
    have hkeep := gangEvent_unblocked_busy (by rw [hblock]; exact hb) (by rw [hchan]; nofun) (by rw [hchan]; nofun) kind g
    rw [hkeep, hchan]
    rw [hgang] at hlast
    exact ⟨rfl, inState_of_ne_step rfl, hlast⟩
  · subst hn
    have hconf := (confirm_member hc hh hpend).trans (confirmMember_dwell (Nat.ne_of_gt hpos))
    have hchan := congrArg (fun u => u.chan g) hconf
    have hgang := congrArg (fun u => u.gang c) hconf
    rw [setGang_enter_chan] at hchan
    rw [setGang_enter_gang] at hgang
    have hblock := confirm_blockers (c := c) hs (by rw [hchan]; rfl)
    have hholder : ((s.confirm g).gang c).holder = none := congrArg Gang.holder hgang
    have hdwell : ((s.confirm g).gang c).dwell = some ⟨(s.chan g).dwellDir.getD .up,
        dwellLength (s.chan g).dwellDir (s.gangEntry c).dwellUp (s.gangEntry c).dwellDown, g⟩ := congrArg Gang.dwell hgang
    have hrest : (s.confirm g).gangEvent c kind g = s.confirm g := by
      rw [gangEvent_present hp]
      unfold State.checked
      rw [judgeHold_free ((congrArg Gang.hold hgang).trans hh) (by rw [hblock]; exact hb),
        checkDwell_dwelling hdwell (by rw [hchan]; rfl), checkTurn_none hholder,
        scan_rests (scanPick_of_dwell (by rw [hdwell]; nofun)) hholder]
    rw [hrest, hchan, hgang]
    exact ⟨rfl, rfl, rfl, rfl⟩
  · have hconf := (confirm_member hc hh hpend).trans (confirmMember_idle hn)
    have hchan := congrArg (fun u => u.chan g) hconf
    have hgang := congrArg (fun u => u.gang c) hconf
    rw [setGang_enter_chan] at hchan
    rw [setGang_enter_gang] at hgang
    have hblock := confirm_blockers (c := c) hs (by rw [hchan]; rfl)
    rw [hgang] at hlast
    exact ⟨gangEvent_unblocked_idle (by rw [hblock]; exact hb) (by rw [hchan]; rfl) kind g, hlast⟩

/-- The event of a channel confirmed outside a gang (R14). -/
theorem confirm_event_alone {s : State} {g : Gate} (hc : s.active.gangOf g = none) : let v := (s.confirm g).judge g
    ((s.chan g).silencePending = true → (v.chan g).state = .hold .silence ∧ (v.chan g).silencePending = false)
      ∧ ((s.chan g).silencePending = false →
        ∀ n, n = dwellLength (s.chan g).dwellDir (s.gateEntry g).dwellUp (s.gateEntry g).dwellDown →
        (0 < n → (v.chan g).state = .dwell (some n)) ∧ (n = 0 → (v.chan g).state = .idle ∨ (v.chan g).state.isStep = true)) := by
  refine ⟨fun hpend => ?_, fun hpend n hn => ⟨fun hpos => ?_, fun hz => ?_⟩⟩
  · have hchan : (s.confirm g).chan g = (s.chan g).inState (.hold .silence) := by
      rw [confirm_alone hc, if_pos hpend, enter_chan_self]
    rw [judge_chan_of_busy _ _ _ (by rw [hchan]; nofun), hchan]
    exact ⟨rfl, inState_of_ne_step rfl⟩
  · subst hn
    have hchan : (s.confirm g).chan g = (s.chan g).inState (.dwell (some (dwellLength (s.chan g).dwellDir (s.gateEntry g).dwellUp
        (s.gateEntry g).dwellDown))) := by
      rw [confirm_alone hc, if_neg (by rw [hpend]; decide), if_neg (Nat.ne_of_gt hpos), enter_chan_self]
    rw [judge_chan_of_busy _ _ _ (by rw [hchan]; nofun), hchan]
    rfl
  · have hchan : (s.confirm g).chan g = (s.chan g).inState .idle := by
      rw [confirm_alone hc, if_neg (by rw [hpend]; decide), if_pos (hn.symm.trans hz), enter_chan_self]
    exact judge_idle (by rw [hchan]; rfl) g

/-- Settles O24: by the deadband and the gang. -/
theorem confirmationEndsTheIncrement : Obligations.ConfirmationEndsTheIncrement := by
  intro s dest p g target timer o hq hl hg hf hst ho
  subst ho
  obtain ⟨kind, t, hexec, hchan, hgang, _⟩ := exec_clear hq dest hl hg (by rw [hst]; nofun) hf
  rw [positionClear_step hst] at hchan hgang
  have hactive : ((s.countF PortCounts.addReceived).placed g (min (fieldAt p 1 2) 1000)).active = s.active := rfl
  have hself := placed_chan_self (s.countF PortCounts.addReceived) g (min (fieldAt p 1 2) 1000)
  have hstate : (((s.countF PortCounts.addReceived).placed g (min (fieldAt p 1 2) 1000)).chan g).state = .step target timer := by
    rw [hself]
    exact hst
  refine ⟨t, hexec, fun hfar => ?_, fun hnear => ?_⟩
  · rw [if_neg (show ¬ _ ≤ (((s.countF PortCounts.addReceived).placed g (min (fieldAt p 1 2) 1000)).gateEntry g).deadband from
      Nat.not_le.mpr hfar)] at hchan
    have hkeep := (turns_stays (c := ((s.countF PortCounts.addReceived).placed g (min (fieldAt p 1 2) 1000)).chan g)
      (by rw [hstate]; rfl)).chanEvent (s := (s.countF PortCounts.addReceived).placed g (min (fieldAt p 1 2) 1000)) kind g rfl
    rw [hchan, hkeep]
    refine ⟨hstate, ?_⟩
    rw [hself]
    rfl
  · rw [if_pos (show _ ≤ (((s.countF PortCounts.addReceived).placed g (min (fieldAt p 1 2) 1000)).gateEntry g).deadband from hnear)]
      at hchan hgang
    have hpend : (((s.countF PortCounts.addReceived).placed g (min (fieldAt p 1 2) 1000)).chan g).silencePending
        = (s.chan g).silencePending := by rw [hself]; rfl
    have hdir : (((s.countF PortCounts.addReceived).placed g (min (fieldAt p 1 2) 1000)).chan g).dwellDir
        = (s.chan g).dwellDir := by rw [hself]; rfl
    have hblocks : ∀ c, ((s.countF PortCounts.addReceived).placed g (min (fieldAt p 1 2) 1000)).blockers c = s.blockers c := fun c =>
      blockers_congr rfl rfl fun m => by
        rw [placed_chan]
        split
        · next hm => rw [hm]; rfl
        · rfl
    have hact := (confirm_frame ((s.countF PortCounts.addReceived).placed g (min (fieldAt p 1 2) 1000)) g).1
    refine ⟨fun c hc _ => ?_, fun hc => ?_⟩
    · have hevent := confirm_event (s := (s.countF PortCounts.addReceived).placed g (min (fieldAt p 1 2) 1000)) hc
        (by rw [hstate]; rfl) kind
      rw [chanEvent_gang (by rw [hact]; exact hc)] at hchan hgang
      rw [hpend, hdir, hblocks c] at hevent
      rw [hchan, hgang]
      exact hevent
    · have hevent := confirm_event_alone (s := (s.countF PortCounts.addReceived).placed g (min (fieldAt p 1 2) 1000)) hc
      rw [chanEvent_alone (by rw [hact]; exact hc)] at hchan hgang
      rw [hpend, hdir] at hevent
      rw [hchan]
      exact hevent

end Sys2Proof.Machine
end

section
/-! POSITION frames without flag, continued: a channel that comes back, and one that stays (R8). -/

namespace Sys2Proof.Machine

/-- The channel back in IDLE at the opening reported (R8). -/
def State.returned (s : State) (g : Gate) (o : Nat) : State :=
  (s.setChan g { s.chan g with governed := some o, source := .none, clamp := .none }).enter g .idle

/-- A channel that a POSITION frame without flag brings back: in WAIT, LOCAL or FAULT. -/
def ChanState.comesBack (st : ChanState) : Prop := st = .wait ∨ st = .localHand ∨ ∃ c, st = .fault c

theorem returned_sameBut (s : State) (g : Gate) (o : Nat) : SameBut [.chans, .portF] s (s.returned g o) :=
  ((setChan_sameBut _ _ _).mono (by decide)).trans (enter_sameBut _ _ _)

theorem returned_chan_self (s : State) (g : Gate) (o : Nat) : (s.returned g o).chan g
    = ({ s.chan g with governed := some o, source := .none, clamp := .none } : Channel).inState .idle := by
  unfold State.returned
  rw [enter_chan_self, chan_setChan_self]

theorem returned_chan_ne (s : State) {g h : Gate} (o : Nat) (hne : h ≠ g) : (s.returned g o).chan h = s.chan h := by
  unfold State.returned
  rw [enter_chan_ne _ _ hne, chan_setChan_ne _ _ hne]

/-- The return, with its notice but for a channel in WAIT that was never measured or is not stale. -/
theorem positionClear_back {s : State} {g : Gate} {before : Channel} {o : Nat} (h : before.state.comesBack) :
    (before.state ≠ .wait ∨ (before.measured ≠ none ∧ before.stale = true) → s.positionClear g before o
        = (s.returned g o).notify .gateReturn (.gate g.1) (packDetail 0 before.state.code) o)
      ∧ (before.state = .wait → before.measured = none → s.positionClear g before o = s.returned g o)
      ∧ (s.positionClear g before o = s.returned g o
        ∨ s.positionClear g before o = (s.returned g o).notify .gateReturn (.gate g.1) (packDetail 0 before.state.code) o) := by
  have hcases : (s.positionClear g before o = if before.state ≠ .wait ∨ (before.measured.isSome && before.stale) = true then
        (s.returned g o).notify .gateReturn (.gate g.1) (packDetail 0 before.state.code) o else s.returned g o) := by
    unfold State.positionClear
    rcases h with hw | hw | ⟨c, hw⟩ <;> rw [hw]
    · simp only [ne_eq, not_true_eq_false, false_or]
      rfl
    · rw [if_pos (.inl nofun)]
      rfl
    · rw [if_pos (.inl nofun)]
      rfl
  refine ⟨fun hn => hcases.trans (if_pos ?_), fun hw hm => hcases.trans (if_neg ?_), ?_⟩
  · rcases hn with hn | ⟨hm, hs⟩
    · exact .inl hn
    · exact .inr (by rw [Option.isSome_iff_ne_none.mpr hm, hs]; rfl)
  · rw [hm]
    rintro (hn | hn)
    · exact hn hw
    · cases hn
  · rw [hcases]
    split
    · exact .inr rfl
    · exact .inl rfl

theorem hasWork_at_target {s : State} {g : Gate} {o : Nat} (hg : (s.chan g).governed = some o) (hm : (s.chan g).measured = some o) :
    s.hasWork g = false := by
  unfold State.hasWork
  rw [hg, hm]
  simp

/-- A channel has no work within its deadband. -/
theorem hasWork_near {s : State} {g : Gate} {o : Nat} (hm : (s.chan g).measured = some o)
    (h : ∀ goal, (s.chan g).governed = some goal → max goal o - min goal o ≤ (s.gateEntry g).deadband) : s.hasWork g = false := by
  unfold State.hasWork
  rw [hm]
  cases hg : (s.chan g).governed with
  | none => rfl
  | some goal => exact decide_eq_false (Nat.not_lt.mpr (h goal hg))

/-- The event of a channel back in IDLE at its target: it stays there, or enters the hold of its gang that another member blocks. -/
theorem returned_event {s u : State} {g : Gate} (ha : u.active = s.active) (hi : (u.chan g).state = .idle) (hw : u.hasWork g = false)
    (hothers : ∀ h, h ≠ g → u.chan h = s.chan h) (hgang : ∀ c, u.gang c = s.gang c) (kind : GangCause) :
    ((∀ c, s.active.gangOf g = some c → (s.gang c).isOut g = true ∨ ∀ m ∈ s.blockers c, m = g) →
        ((u.chanEvent kind g).chan g).state = .idle)
      ∧ (∀ c, s.active.gangOf g = some c → (s.gang c).isOut g = false → (∃ m ∈ s.blockers c, m ≠ g) →
        ((u.chanEvent kind g).chan g).state = .hold .gang) := by
  have hmember : ∀ c m, m ≠ g → (m ∈ u.blockers c ↔ m ∈ s.blockers c) := fun c m hm => by
    rw [mem_blockers, mem_blockers]
    unfold State.members
    rw [ha, hgang, hothers m hm]
  have hself : ∀ c, g ∉ u.blockers c := fun c hm => by
    have := (mem_blockers.mp hm).2.2
    rw [hi] at this
    cases this
  refine ⟨fun hfree => ?_, fun c hc ho ⟨m, hm, hne⟩ => ?_⟩
  · cases hc : s.active.gangOf g with
    | none =>
      rw [chanEvent_alone (by rw [ha]; exact hc), judge_chan_no_work hw]
      exact hi
    | some c =>
      rw [chanEvent_gang (by rw [ha]; exact hc)]
      refine gangEvent_idle_no_work hi hw c kind g ?_
      rcases hfree c hc with hout | hall
      · refine .inr fun hm => ?_
        have := (mem_holdable.mp hm).2.1
        rw [hgang, hout] at this
        cases this
      · refine .inl (List.eq_nil_iff_forall_not_mem.mpr fun m hm => ?_)
        have hne : m ≠ g := fun he => hself c (he ▸ hm)
        exact hne (hall m ((hmember c m hne).mp hm))
  · have hb : u.blockers c ≠ [] := List.ne_nil_of_mem ((hmember c m hne).mpr hm)
    have hhold : g ∈ u.holdable c := mem_holdable.mpr ⟨by
      unfold State.members
      rw [ha]
      exact mem_of_gangOf hc, by rw [hgang]; exact ho, .inl hi⟩
    have hp : (u.gangEntry c).isPresent = true := by
      unfold State.gangEntry
      rw [ha]
      exact present_of_gangOf hc
    rw [chanEvent_gang (by rw [ha]; exact hc), (gangEvent_blocked hp hb kind g).2.1 g hhold]
    rfl

theorem judge_own (s : State) (g : Gate) : (s.judge g).portD = s.portD := judge_sameBut s g .portD (by decide)

theorem positionClear_stays {s : State} {g : Gate} {before : Channel} {o : Nat} (h : before.state = .idle
    ∨ (∃ c, before.state = .hold c) ∨ ∃ n, before.state = .dwell n) : s.positionClear g before o = s := by
  unfold State.positionClear
  rcases h with h | ⟨c, h⟩ | ⟨n, h⟩ <;> rw [h]

/-- A write of the position alone changes no blocker. -/
theorem placed_blockers (s : State) (g : Gate) (o : Nat) (c : GangId) : (s.placed g o).blockers c = s.blockers c :=
  blockers_congr rfl rfl fun m => by
    rw [placed_chan]
    split
    · next hm => rw [hm]; rfl
    · rfl

theorem placed_requests (s : State) (g : Gate) (o : Nat) : (s.placed g o).requests = s.requests := requests_setChan_same rfl rfl rfl

/-- Settles O23: by the state the frame finds. -/
theorem unflaggedPositionReturnsTheChannel : Obligations.UnflaggedPositionReturnsTheChannel := by
  intro s dest p g hq hl hg hf
  refine ⟨fun hback => ?_, fun hfree => ⟨fun hst => ?_, fun hi => ?_⟩⟩
  · have hu : (s.chan g).state ≠ .unbound := by
      rcases hback with h | h | ⟨c, h⟩ <;> rw [h] <;> nofun
    obtain ⟨kind, t, hexec, hchan, hgang, hown⟩ := exec_clear hq dest hl hg hu hf
    obtain ⟨hloud, hquiet, hor⟩ := positionClear_back
      (s := (s.countF PortCounts.addReceived).placed g (min (fieldAt p 1 2) 1000)) (g := g) (o := min (fieldAt p 1 2) 1000) hback
    have hrec := returned_chan_self ((s.countF PortCounts.addReceived).placed g (min (fieldAt p 1 2) 1000)) g (min (fieldAt p 1 2) 1000)
    have hret := returned_sameBut ((s.countF PortCounts.addReceived).placed g (min (fieldAt p 1 2) 1000)) g (min (fieldAt p 1 2) 1000)
    rw [placed_chan_self] at hrec
    generalize hX : ((s.countF PortCounts.addReceived).placed g (min (fieldAt p 1 2) 1000)).positionClear g (s.chan g)
      (min (fieldAt p 1 2) 1000) = u at *
    have hnotice : ∀ h, u.chan h = (((s.countF PortCounts.addReceived).placed g (min (fieldAt p 1 2) 1000)).returned g
        (min (fieldAt p 1 2) 1000)).chan h := fun h => by
      rcases hor with he | he <;> rw [he]
      exact chan_notify ..
    have hactive : u.active = s.active := by
      have := active_of_sameBut (by decide) hret
      rcases hor with he | he <;> rw [he]
      · exact this
      · exact (notify_active ..).trans this
    have hgangs : ∀ c, u.gang c = s.gang c := fun c => by
      have := gang_of_sameBut (by decide) hret c
      rcases hor with he | he <;> rw [he]
      · exact this
      · exact (gang_notify ..).trans this
    have hself := (hnotice g).trans hrec
    have hothers : ∀ h, h ≠ g → u.chan h = s.chan h := fun h hne => by
      rw [hnotice, returned_chan_ne _ _ hne, placed_chan_ne _ _ hne]
      rfl
    have hwork : u.hasWork g = false := hasWork_at_target (o := min (fieldAt p 1 2) 1000) (by rw [hself]; rfl) (by rw [hself]; rfl)
    obtain ⟨hidle, hheld⟩ := returned_event hactive (by rw [hself]; rfl) hwork hothers hgangs kind
    have hreq := congrFun (blind_requests.chanEvent u kind g) g
    simp only [State.requests, Prod.mk.injEq] at hreq
    obtain ⟨hgov, hsrc, hclamp⟩ := hreq
    refine ⟨t, hexec, fun h => ?_, fun c hc ho hm => ?_, ?_, ?_, ?_, fun hn => ?_, fun hw hm halone => ?_⟩
    · rw [hchan]
      exact hidle h
    · rw [hchan]
      exact hheld c hc ho hm
    · rw [hchan, hgov, hself]
      rfl
    · rw [hchan, hsrc, hself]
      rfl
    · rw [hchan, hclamp, hself]
      rfl
    · have hline : (((s.countF PortCounts.addReceived).placed g (min (fieldAt p 1 2) 1000)).returned g
          (min (fieldAt p 1 2) 1000)).portD = s.portD := (hret .portD (by decide)).trans rfl
      have hreport : (((s.countF PortCounts.addReceived).placed g (min (fieldAt p 1 2) 1000)).returned g
          (min (fieldAt p 1 2) 1000)).report = s.report := (hret .report (by decide)).trans rfl
      rw [← packDetail_zero (s.chan g).state.code]
      refine noticed_of_prefix (by rw [hline]) (by rw [hline]) (by rw [hreport]) ((hret .clock (by decide)).1.trans rfl) fun l hl => ?_
      rw [← hloud hn] at hl
      rw [hown]
      exact (keeps_own l).chanEvent kind g hl
    · have hu := hquiet hw hm
      rw [hown, chanEvent_alone (by rw [hactive]; exact halone), judge_own, hu]
      exact congrArg PortD.own (hret .portD (by decide))
  · have hu : (s.chan g).state ≠ .unbound := by
      rcases hst with ⟨c, h⟩ | ⟨o, h⟩ <;> rw [h] <;> nofun
    have hni : (s.chan g).state ≠ .idle := by
      rcases hst with ⟨c, h⟩ | ⟨o, h⟩ <;> rw [h] <;> nofun
    obtain ⟨kind, t, hexec, hchan, _, _⟩ := exec_clear hq dest hl hg hu hf
    rw [positionClear_stays (.inr hst)] at hchan
    have hself := placed_chan_self (s.countF PortCounts.addReceived) g (min (fieldAt p 1 2) 1000)
    have hkeep : (((s.countF PortCounts.addReceived).placed g (min (fieldAt p 1 2) 1000)).chanEvent kind g).chan g
        = ((s.countF PortCounts.addReceived).placed g (min (fieldAt p 1 2) 1000)).chan g := by
      cases hc : s.active.gangOf g with
      | none =>
        rw [chanEvent_alone (s := (s.countF PortCounts.addReceived).placed g (min (fieldAt p 1 2) 1000)) hc]
        exact judge_chan_of_busy _ _ _ (by rw [hself]; exact hni)
      | some c =>
        rw [chanEvent_gang (s := (s.countF PortCounts.addReceived).placed g (min (fieldAt p 1 2) 1000)) hc]
        obtain ⟨hh, hb⟩ := hfree c hc
        have hp : (((s.countF PortCounts.addReceived).placed g (min (fieldAt p 1 2) 1000)).gangEntry c).isPresent = true :=
          present_of_gangOf hc
        have hj := judgeHold_free (s := (s.countF PortCounts.addReceived).placed g (min (fieldAt p 1 2) 1000)) (c := c) hh
          ((placed_blockers ..).trans hb) g
        rw [gangEvent_chan_of_busy hp kind (by rw [hj, hself]; exact hni), hj]
    rw [hself] at hkeep
    refine ⟨t, hexec, ?_, ?_, ?_⟩
    · rw [hchan, hkeep]
      rfl
    · rw [hchan, hkeep]
      rfl
    · rw [hchan, hkeep]
      rfl
  · obtain ⟨kind, t, hexec, hchan, _, _⟩ := exec_clear hq dest hl hg (by rw [hi]; nofun) hf
    rw [positionClear_stays (.inl hi)] at hchan
    have hself := placed_chan_self (s.countF PortCounts.addReceived) g (min (fieldAt p 1 2) 1000)
    have hidle : (((s.countF PortCounts.addReceived).placed g (min (fieldAt p 1 2) 1000)).chan g).state = .idle := by
      rw [hself]
      exact hi
    have hreq := congrFun ((blind_requests.chanEvent _ kind g).trans
      (placed_requests (s.countF PortCounts.addReceived) g (min (fieldAt p 1 2) 1000))) g
    simp only [State.requests, Prod.mk.injEq] at hreq
    obtain ⟨hgov, hsrc, _⟩ := hreq
    generalize min (fieldAt p 1 2) 1000 = o at *
    refine ⟨t, hexec, ?_, ?_, ?_, fun halone hnear => ?_⟩
    · rw [hchan]
      cases hc : s.active.gangOf g with
      | none =>
        rw [chanEvent_alone (s := (s.countF PortCounts.addReceived).placed g (o)) hc]
        exact judge_idle hidle g
      | some c =>
        rw [chanEvent_gang (s := (s.countF PortCounts.addReceived).placed g (o)) hc]
        obtain ⟨_, hb⟩ := hfree c hc
        have hfree : ((s.countF PortCounts.addReceived).placed g o).blockers c = [] := (placed_blockers ..).trans hb
        exact gangEvent_unblocked_idle hfree hidle kind g
    · rw [hchan, hgov]
      rfl
    · rw [hchan, hsrc]
      rfl
    · have hwork : ((s.countF PortCounts.addReceived).placed g (o)).hasWork g = false := by
        refine hasWork_near (o := o) (by rw [hself]; rfl) fun goal hgoal => ?_
        rw [hself] at hgoal
        exact hnear goal hgoal
      rw [hchan, chanEvent_alone (s := (s.countF PortCounts.addReceived).placed g (o)) halone,
        judge_chan_no_work hwork]
      exact hidle

end Sys2Proof.Machine
end

section
/-! The end of a dwell: a channel's own and a gang's (R16, R84, R80). -/

namespace Sys2Proof.Machine

theorem enter_idle_portF (s : State) (g : Gate) : (s.enter g .idle).portF = s.portF := by
  rw [enter_eq, if_pos rfl]
  rfl

/-- Which queue a channel uses depends on its source and its station's stage. -/
theorem queueFor_congr {s t : State} {g : Gate} (hs : (t.chan g).source = (s.chan g).source) (ha : t.active = s.active)
    (hst : t.stations = s.stations) : t.queueFor g = s.queueFor g := by
  unfold State.queueFor State.inSurcharge State.gateEntry State.station
  rw [hs, ha, hst]

theorem caps_alone {s : State} {g : Gate} (h : s.active.gangOf g = none) : s.caps g = (none, none) := by
  unfold State.caps
  rw [h]

/-- The work of a channel in IDLE outside a gang. -/
theorem workTarget_alone {s : State} {g : Gate} {goal o target : Nat} (hi : (s.chan g).state = .idle)
    (halone : s.active.gangOf g = none) (hg : (s.chan g).governed = some goal) (hm : (s.chan g).measured = some o)
    (hw : s.hasWork g = true) (hs : stepToward (s.gateEntry g) (none, none) o goal = some target) :
    s.workTarget g = some target := by
  unfold State.workTarget State.cappedStep
  rw [hi, hw, if_pos (by decide), hg, hm, caps_alone halone]
  exact hs

theorem mayStart_alone {s : State} {g : Gate} (h : s.active.gangOf g = none) : s.mayStart g = true := by
  unfold State.mayStart
  rw [h]

theorem mayStart_holder {s : State} {g : Gate} {c : GangId} (hc : s.active.gangOf g = some c) (hh : (s.gang c).holder = some g) :
    s.mayStart g = true := by
  unfold State.mayStart
  rw [hc]
  exact beq_iff_eq.mpr hh

/-- A judging with work, turn and room starts the increment. -/
theorem judge_state_of_work {s : State} {g : Gate} {target : Nat} (hw : s.workTarget g = some target) (hm : s.mayStart g = true)
    (hr : s.portF.room (s.queueFor g) = true) : ((s.judge g).chan g).state = .step target (s.gateEntry g).stepTimeout := by
  rw [judge_start hw hm hr, startIncrement_chan, if_pos rfl]

theorem judge_chan_ne (s : State) {g h : Gate} (hne : h ≠ g) : (s.judge g).chan h = s.chan h :=
  (judge_chan_cases s h g).resolve_right fun he => hne he.1.symm

/-! ### A channel's own dwell -/

theorem dwellExpires_due {s : State} {g : Gate} (h : (s.chan g).state = .dwell (some 0)) (halone : s.active.gangOf g = none) :
    s.dwellExpires g = (s.enter g .idle).judge g := by
  unfold State.dwellExpires
  rw [h]
  exact chanEvent_alone (by rw [quiet_active.enter]; exact halone) _

theorem dwellExpires_idle {s : State} {g : Gate} (h : (s.chan g).state ≠ .dwell (some 0)) : s.dwellExpires g = s := by
  unfold State.dwellExpires
  split
  · next hd => exact absurd hd h
  · rfl

/-- A channel woken to IDLE keeps its work. -/
theorem enter_hasWork (s : State) (g : Gate) (st : ChanState) (h : Gate) : (s.enter g st).hasWork h = s.hasWork h := by
  have hc : ((s.enter g st).chan h).governed = (s.chan h).governed ∧ ((s.enter g st).chan h).measured = (s.chan h).measured := by
    rw [enter_chan]
    split
    · next he => subst he; exact ⟨rfl, rfl⟩
    · exact ⟨rfl, rfl⟩
  exact hasWork_congr hc.1 hc.2 (quiet_active.enter s g st)

/-! ### A gang's dwell -/

/-- The gang without its dwell, its dwelling member in IDLE (R84). -/
def State.woken (s : State) (c : GangId) (m : Gate) : State :=
  if (s.chan m).state.isDwell then (s.setGang c { s.gang c with dwell := none }).enter m .idle
  else s.setGang c { s.gang c with dwell := none }

theorem gangDwellExpires_due {s : State} {c : GangId} {d : GangDwell} (hd : (s.gang c).dwell = some d) (h0 : d.remaining = 0) :
    s.gangDwellExpires c = (s.woken c d.member).gangEvent c .other d.member := by
  unfold State.gangDwellExpires
  rw [hd]
  exact if_pos h0

theorem gangDwellExpires_idle {s : State} {c : GangId} (h : (s.gang c).dwell = none
    ∨ ∃ d, (s.gang c).dwell = some d ∧ d.remaining ≠ 0) : s.gangDwellExpires c = s := by
  unfold State.gangDwellExpires
  rcases h with h | ⟨d, h, hn⟩ <;> rw [h]
  exact if_neg hn

theorem woken_gang (s : State) (c : GangId) (m : Gate) : (s.woken c m).gang c = { s.gang c with dwell := none } := by
  unfold State.woken
  split
  · exact setGang_enter_gang _ _ _ _ _
  · exact gang_setGang_self ..

/-- No event of a gang puts a channel into DWELL. -/
theorem turns_awake (g : Gate) : Turns fun s => (s.chan g).state.isDwell = false where
  gang _ _ _ h := h
  waits _ _ _ h := h
  notice s kind subject d v h := by rw [chan_notify]; exact h
  start s i target _ _ _ h := by
    rw [startIncrement_chan]
    split
    · rfl
    · exact h
  hold s i _ h := by
    rw [enter_chan]
    split
    · rfl
    · exact h
  wake s i _ h := by
    rw [enter_chan]
    split
    · rfl
    · exact h
  free s i _ h := by
    rw [enter_chan]
    split
    · show (s.afterGangHold i).isDwell = false
      unfold State.afterGangHold
      split <;> rfl
    · exact h

theorem woken_awake (s : State) (c : GangId) (m : Gate) : ((s.woken c m).chan m).state.isDwell = false := by
  unfold State.woken
  split
  · rw [enter_chan_self]
    rfl
  · next h => exact Bool.eq_false_of_not_eq_true h

theorem scan_picked {s : State} {c : GangId} {m : Gate} (h : s.scanPick c = some m) (cause : Option Gate) :
    s.scan c cause = (s.setGang c { s.gang c with holder := some m }).judge m := by
  unfold State.scan
  rw [h]

/-- A scan of a free gang picks the first member in its order that is not out and has a step to make (R80). -/
theorem scanPick_first {s : State} {c : GangId} {before after : List Gate} {m : Gate} (hh : (s.gang c).holder = none)
    (hd : (s.gang c).dwell = none) (hn : (s.gang c).hold = false)
    (ho : scanOrder (s.members c) (s.gang c).lastMover = before ++ m :: after)
    (hb : ∀ x ∈ before, (s.gang c).isOut x = true ∨ s.workTarget x = none) (hm : (s.gang c).isOut m = false)
    (hw : (s.workTarget m).isSome = true) : s.scanPick c = some m := by
  unfold State.scanPick
  rw [hh, hd, hn, if_pos (by decide), ho, List.find?_append, List.find?_eq_none.mpr fun x hx => ?_, Option.none_or,
    List.find?_cons_of_pos]
  · rw [hm, hw]
    rfl
  · rcases hb x hx with h | h
    · rw [h]
      simp
    · rw [h]
      simp

theorem scanOrder_last {front behind : List Gate} {last : Gate} (h : last ∉ front) :
    scanOrder (front ++ last :: behind) (some last) = behind ++ front ++ [last] := by
  have hne : ∀ m ∈ front, (m != last) = true := fun m hm => bne_iff_ne.mpr fun he => h (he ▸ hm)
  have hstop : ¬ (last != last) = true := by rw [bne_self_eq_false]; decide
  unfold scanOrder
  simp only
  rw [if_pos (List.contains_iff_mem.mpr (List.mem_append_right _ (List.mem_cons_self ..))),
    List.dropWhile_append_of_pos hne, List.takeWhile_append_of_pos hne, List.dropWhile_cons_of_neg (p := fun a => a != last) hstop,
    List.takeWhile_cons_of_neg (p := fun a => a != last) hstop, List.append_nil]
  rfl

/-- The scan behind a gang dwell's end gives the turn to the first member with a step to make, which takes it. -/
theorem gangDwell_turn {s u : State} {c : GangId} {m : Gate} {target : Nat} {before after : List Gate} {d : Gate}
    (hp : (u.gangEntry c).isPresent = true) (hg : u.gang c = { s.gang c with dwell := none })
    (hh : (s.gang c).holder = none) (hn : (s.gang c).hold = false) (hb : u.blockers c = [])
    (ho : scanOrder (u.members c) (s.gang c).lastMover = before ++ m :: after)
    (hbefore : ∀ x ∈ before, (s.gang c).isOut x = true ∨ u.workTarget x = none) (hm : (s.gang c).isOut m = false)
    (hw : u.workTarget m = some target) : ((u.gangEvent c .other d).gang c).holder = some m
      ∧ (u.active.gangOf m = some c → u.portF.room (u.queueFor m) = true →
          ((u.gangEvent c .other d).chan m).state = .step target (u.gateEntry m).stepTimeout) := by
  have hholder : (u.gang c).holder = none := by rw [hg]; exact hh
  have hdwell : (u.gang c).dwell = none := by rw [hg]
  have hhold : (u.gang c).hold = false := by rw [hg]; exact hn
  have hpick : u.scanPick c = some m := scanPick_first hholder hdwell hhold (by rw [hg]; exact ho) (by rw [hg]; exact hbefore)
    (by rw [hg]; exact hm) (by rw [hw]; rfl)
  have hevent : u.gangEvent c .other d = (u.setGang c { u.gang c with holder := some m }).judge m := by
    rw [gangEvent_present hp]
    unfold State.checked
    rw [judgeHold_free hhold hb, checkDwell_none hdwell, checkTurn_none hholder, scan_picked hpick]
  have hwork : (u.setGang c { u.gang c with holder := some m }).workTarget m = some target := by
    refine (workTarget_congr (s := u) (t := u.setGang c { u.gang c with holder := some m }) rfl rfl rfl fun j => ?_).trans hw
    rw [gang_setGang]
    split
    · next hj => rw [hj]
    · rfl
  rw [hevent]
  refine ⟨by rw [judge_gang, gang_setGang_self], fun hc hr => ?_⟩
  exact judge_state_of_work hwork (mayStart_holder hc (by rw [gang_setGang_self])) hr

/-- Settles O26: by the kind of the dwell and what remains of it. -/
theorem dwellsEnd : Obligations.DwellsEnd := by
  intro s hq
  refine ⟨fun g => ⟨fun hd halone => ?_, fun hn => event_eq hq (dwellExpires_idle hn) hq.1.1⟩, fun c => ⟨fun d hd h0 => ?_,
    fun front behind last h => scanOrder_last h, fun h => event_eq hq (gangDwellExpires_idle h) hq.1.1⟩⟩
  · have hexec : exec (.dwellExpiry g) s = .next (s.dwellExpires g).finish := event_of_quiet hq _
    rw [dwellExpires_due hd halone] at hexec
    have hchan : ∀ h, ((s.enter g .idle).judge g).finish.chan h = ((s.enter g .idle).judge g).chan h := fun h =>
      congrArg (fun c => Tab.get c h) (finish_chans _)
    have hself := enter_chan_self s g .idle
    have hactive := quiet_active.enter s g .idle
    refine ⟨_, hexec, fun hw => ?_, fun goal o target hg hm hw hs hr => ?_, fun h hne => ?_, ?_⟩
    · rw [hchan, judge_chan_no_work ((enter_hasWork s g .idle g).trans hw), hself]
      rfl
    · have hwork : (s.enter g .idle).workTarget g = some target :=
        workTarget_alone (goal := goal) (o := o) (by rw [hself]; rfl) (by rw [hactive]; exact halone) (by rw [hself]; exact hg)
          (by rw [hself]; exact hm) ((enter_hasWork s g .idle g).trans hw) (by
            unfold State.gateEntry at hs ⊢
            rw [hactive]
            exact hs)
      have hqueue : (s.enter g .idle).queueFor g = s.queueFor g :=
        queueFor_congr (by rw [hself]; rfl) hactive (quiet_stations.enter s g .idle)
      have hentry : (s.enter g .idle).gateEntry g = s.gateEntry g := by
        unfold State.gateEntry
        rw [hactive]
      rw [hchan, judge_state_of_work hwork (mayStart_alone (by rw [hactive]; exact halone))
        (by rw [hqueue, enter_idle_portF]; exact hr), hentry]
    · rw [hchan, judge_chan_ne _ hne, enter_chan_ne _ _ hne]
    · exact (((enter_sameBut _ _ _).mono (by decide)).trans ((judge_sameBut _ _).mono (by decide))).trans
        ((finish_sameBut _).mono (by decide))
  · have hexec : exec (.gangDwellExpiry c) s = .next (s.gangDwellExpires c).finish := event_of_quiet hq _
    have hsame : SameBut [.chans, .gangs, .portF, .portD, .report] s (s.gangDwellExpires c).finish :=
      (sameBut_of_quiet fun q => q.gangDwellExpires s c).trans ((finish_sameBut _).mono (by decide))
    rw [gangDwellExpires_due hd h0] at hexec hsame
    have hchan : ∀ h, ((s.woken c d.member).gangEvent c .other d.member).finish.chan h
        = ((s.woken c d.member).gangEvent c .other d.member).chan h := fun h => congrArg (fun x => Tab.get x h) (finish_chans _)
    have hgang : ((s.woken c d.member).gangEvent c .other d.member).finish.gang c
        = ((s.woken c d.member).gangEvent c .other d.member).gang c := gang_of_sameBut (by decide) (finish_sameBut _) c
    have hkept := gangEvent_kept (s.woken c d.member) c .other d.member
    have hwoken := woken_gang s c d.member
    refine ⟨_, hexec, ?_, ?_, ?_, ?_, fun before after m target hp hh hn hb hdw ho => ?_, hsame⟩
    · rw [hgang]
      exact hkept.dwell (by rw [hwoken])
    · rw [hchan]
      exact (turns_awake d.member).gangEvent c _ _ (woken_awake s c d.member)
    · rw [hgang, hkept.out, hwoken]
    · rw [hgang, hkept.lastMover, hwoken]
    · intro u hbefore hm hw
      have hu : s.woken c d.member = u := if_pos hdw
      have hactive : u.active = s.active := quiet_active.enter _ _ _
      have hblock : u.blockers c = s.blockers c := by
        refine blockers_congr hactive ?_ fun i => ?_
        · rw [← hu, hwoken]
        · have hi := enter_chan (s.setGang c { s.gang c with dwell := none }) d.member i .idle
          rw [show u.chan i = _ from hi]
          split
          · next he =>
            subst he
            cases hst : (s.chan d.member).state <;> rw [hst] at hdw <;> cases hdw
            rfl
          · rfl
      rw [hgang, hchan]
      rw [hu] at hwoken ⊢
      have hturn := gangDwell_turn (s := s) (u := u) (d := d.member) (by
        unfold State.gangEntry at hp ⊢
        rw [hactive]
        exact hp) hwoken hh hn (hblock.trans hb) (by
          unfold State.members at ho ⊢
          rw [hactive]
          exact ho) hbefore hm hw
      refine ⟨hturn.1, fun hc hr => ?_⟩
      have hentry : u.gateEntry m = s.gateEntry m := by
        unfold State.gateEntry
        rw [hactive]
      have hsource : (u.chan m).source = (s.chan m).source := by
        have hi := enter_chan (s.setGang c { s.gang c with dwell := none }) d.member m .idle
        rw [show u.chan m = _ from hi]
        split
        · next he => subst he; rfl
        · rfl
      have hqueue : u.queueFor m = s.queueFor m := queueFor_congr hsource hactive (quiet_stations.enter _ _ _)
      have hport : u.portF = s.portF := enter_idle_portF (s.setGang c { s.gang c with dwell := none }) d.member
      have hstep := hturn.2 (by rw [hactive]; exact hc) (by rw [hqueue, hport]; exact hr)
      rw [hentry] at hstep
      exact hstep

end Sys2Proof.Machine
end

section
/-! POSITION frames with a flag (R5 to R7), and the compensation fill (R93 to R96). -/

namespace Sys2Proof.Machine

/-! ### A request taken -/

theorem endTrace_chan (s : State) (c : EndCause) (h : Gate) : (s.endTrace c).chan h = s.chan h :=
  chan_of_sameBut (by decide) (endTrace_sameBut s c) h

theorem takeRequest_takes {s : State} {g : Gate} (h : (s.chan g).state.takes = true) (o : Nat) (src : Source) (mark : ClampMark) :
    s.takeRequest g o src mark = ((s.requested g o src mark).supersede g).chanEvent .request g :=
  (takeRequest_eq s g o src mark).trans (if_pos h)

theorem takeRequest_refuses {s : State} {g : Gate} (h : (s.chan g).state.takes = false) (o : Nat) (src : Source)
    (mark : ClampMark) : s.takeRequest g o src mark = s :=
  (takeRequest_eq s g o src mark).trans (if_neg (by rw [h]; decide))

theorem requested_chan (s : State) (g : Gate) (o : Nat) (src : Source) (mark : ClampMark) (h : Gate) :
    (s.requested g o src mark).chan h = if h = g then (if (s.chan g).state = .hold .silence then
        ((s.chan g).given (some o) src mark false).inState .idle else (s.chan g).given (some o) src mark false) else s.chan h := by
  unfold State.requested
  split
  · rw [enter_chan, chan_setChan_self]
    by_cases he : h = g
    · rw [if_pos he, if_pos he]
    · rw [if_neg he, if_neg he, chan_setChan_ne _ _ he]
  · exact chan_setChan ..

theorem requested_sameBut (s : State) (g : Gate) (o : Nat) (src : Source) (mark : ClampMark) :
    SameBut [.chans] s (s.requested g o src mark) := by
  unfold State.requested
  split
  · rw [enter_eq, if_pos rfl]
    exact (setChan_sameBut _ _ _).trans (setChan_sameBut _ _ _)
  · exact setChan_sameBut _ _ _

theorem requested_supersede_sameBut (s : State) (g : Gate) (o : Nat) (src : Source) (mark : ClampMark) :
    SameBut [.chans, .report] s ((s.requested g o src mark).supersede g) :=
  ((requested_sameBut _ _ _ _ _).mono (by decide)).trans ((supersede_sameBut _ _).mono (by decide))

theorem supersede_chan (s : State) (g h : Gate) : (s.supersede g).chan h = s.chan h :=
  chan_of_sameBut (by decide) (supersede_sameBut s g) h

/-- A channel that takes a request has it; every other channel keeps its own. -/
theorem takeRequest_requests (s : State) (g : Gate) (o : Nat) (src : Source) (mark : ClampMark) (h : Gate) :
    (s.takeRequest g o src mark).requests h
      = if h = g ∧ (s.chan g).state.takes = true then (some o, src, mark) else s.requests h := by
  cases ht : (s.chan g).state.takes with
  | false =>
    rw [takeRequest_refuses ht, if_neg fun h => nomatch h.2]
  | true =>
    rw [takeRequest_takes ht, blind_requests.chanEvent]
    unfold State.requests
    rw [supersede_chan, requested_chan]
    by_cases he : h = g
    · rw [if_pos he, if_pos (And.intro he rfl)]
      by_cases hs : (s.chan g).state = .hold .silence
      · rw [if_pos hs]
        rfl
      · rw [if_neg hs]
        rfl
    · rw [if_neg he, if_neg fun h => he h.1]

/-- A request to another channel leaves a channel that stays. -/
theorem takeRequest_stays {s : State} {g h : Gate} (hst : (s.chan g).state.stays = true) (hne : h ≠ g) (o : Nat) (src : Source)
    (mark : ClampMark) : (s.takeRequest h o src mark).chan g = s.chan g := by
  cases ht : (s.chan h).state.takes with
  | false => rw [takeRequest_refuses ht]
  | true =>
    rw [takeRequest_takes ht]
    refine (turns_stays hst).chanEvent _ _ ?_
    rw [supersede_chan, requested_chan, if_neg (Ne.symm hne)]

/-! ### Notices of a gang's event -/

theorem judgeHold_own_length (s : State) (c : GangId) (cause : Gate) :
    (s.judgeHold c cause).portD.own.length ≤ s.portD.own.length + 1
      ∧ (s.judgeHold c cause).portD.reserved = s.portD.reserved := by
  have hheld : (s.heldState c).portD = s.portD := heldState_sameBut s c .portD (by decide)
  have hfree : (s.freedState c).portD = s.portD :=
    (freeMembers_sameBut _ (s.setGang c { s.gang c with hold := false }) .portD (by decide)).trans rfl
  by_cases hb : s.blockers c = []
  · cases hh : (s.gang c).hold with
    | true =>
      obtain ⟨v, hv⟩ := releaseGang_eq s c cause
      have := notify_own_length (s.freedState c) .gangRelease (.gang c.1) (packDetail 0 cause.1) v
      rw [judgeHold_releases hh hb, hv]
      rwa [hfree] at this
    | false =>
      rw [judgeHold_free hh hb]
      exact ⟨Nat.le_succ _, rfl⟩
  · cases hh : (s.gang c).hold with
    | true =>
      have : (s.holdAll (s.holdable c)).portD = s.portD := holdAll_sameBut _ s .portD (by decide)
      rw [judgeHold_holds hh hb, this]
      exact ⟨Nat.le_succ _, rfl⟩
    | false =>
      obtain ⟨b, bs, hbs⟩ := List.exists_cons_of_ne_nil hb
      have := notify_own_length (s.heldState c) .gangHold (.gang c.1) (packDetail b.1 ((s.heldState c).chan b).state.code)
        (s.holdable c).length
      rw [judgeHold_becomes hh hbs, becomeHeld_loud]
      rwa [hheld] at this

/-- An event of a gang hands on at most one notice, and reserves nothing. -/
theorem gangEvent_own_length (s : State) (c : GangId) (kind : GangCause) (cause : Gate) :
    (s.gangEvent c kind cause).portD.own.length ≤ s.portD.own.length + 1
      ∧ (s.gangEvent c kind cause).portD.reserved = s.portD.reserved := by
  by_cases hp : (s.gangEntry c).isPresent = true
  · have hscan : ((s.checked c kind cause).scan c (some cause)).portD = (s.judgeHold c cause).portD :=
      (scan_sameBut _ _ _ .portD (by decide)).trans (checked_sameBut s c kind cause .portD (by decide))
    rw [gangEvent_present hp, hscan]
    exact judgeHold_own_length s c cause
  · rw [State.gangEvent, if_neg hp]
    exact ⟨Nat.le_succ _, rfl⟩

theorem chanEvent_own_length (s : State) (kind : GangCause) (g : Gate) :
    (s.chanEvent kind g).portD.own.length ≤ s.portD.own.length + 1
      ∧ (s.chanEvent kind g).portD.reserved = s.portD.reserved := by
  unfold State.chanEvent
  split
  · rw [judge_own]
    exact ⟨Nat.le_succ _, rfl⟩
  · exact gangEvent_own_length ..

theorem takeRequest_own_length (s : State) (g : Gate) (o : Nat) (src : Source) (mark : ClampMark) :
    (s.takeRequest g o src mark).portD.own.length ≤ s.portD.own.length + 1
      ∧ (s.takeRequest g o src mark).portD.reserved = s.portD.reserved := by
  cases ht : (s.chan g).state.takes with
  | false =>
    rw [takeRequest_refuses ht]
    exact ⟨Nat.le_succ _, rfl⟩
  | true =>
    have hline : ((s.requested g o src mark).supersede g).portD = s.portD := requested_supersede_sameBut s g o src mark .portD (by decide)
    rw [takeRequest_takes ht, ← hline]
    exact chanEvent_own_length ..

/-! ### The fill -/

/-- What the fill asks of a member: how much more it is to give, within what is left (R94). -/
def State.fillPart (s : State) (m : Gate) (head left : Nat) : Nat :=
  min (s.rate m head 1000 - s.rate m head (s.chan m).plannedOpening) left

/-- The opening at which a member gives its part. -/
def State.fillOpening (s : State) (m : Gate) (head part : Nat) : Nat :=
  match toFin? 12 (s.gateEntry m).surface with
  | some f => (lowerInverse (s.active.surfaces.get f) head ((s.rate m head (s.chan m).plannedOpening + part : Nat) : Int)).1
  | none => 0

theorem fillFrom_cons (s : State) (c : GangId) (head : Nat) (m : Gate) (ms : List Gate) (left raised : Nat) :
    s.fillFrom c head (m :: ms) left raised
      = if (s.fillable c m && decide (0 < s.fillPart m head left)) = true then
          (s.takeRequest m (s.fillOpening m head (s.fillPart m head left)) .compensation .none).fillFrom c head ms
            (left - s.fillPart m head left) (raised + 1)
        else s.fillFrom c head ms left raised := rfl

theorem fillable_takes {s : State} {c : GangId} {m : Gate} (h : s.fillable c m = true) : (s.chan m).state.takes = true := by
  unfold State.fillable at h
  have h := (Bool.and_eq_true_iff.mp h).2
  cases hst : (s.chan m).state <;> rw [hst] at h <;> first | rfl | cases h

/-- The fill asks each member once at most, and hands on a notice for each at most. -/
theorem fillFrom_own_length (c : GangId) (head : Nat) (ms : List Gate) (s : State) (left raised : Nat) :
    (s.fillFrom c head ms left raised).1.portD.own.length ≤ s.portD.own.length + ms.length
      ∧ (s.fillFrom c head ms left raised).1.portD.reserved = s.portD.reserved := by
  induction ms generalizing s left raised with
  | nil => exact ⟨Nat.le_refl _, rfl⟩
  | cons m ms ih =>
    rw [fillFrom_cons]
    split
    · have htake := takeRequest_own_length s m (s.fillOpening m head (s.fillPart m head left)) .compensation .none
      have hrest := ih (s.takeRequest m (s.fillOpening m head (s.fillPart m head left)) .compensation .none)
        (left - s.fillPart m head left) (raised + 1)
      rw [List.length_cons]
      exact ⟨by omega, hrest.2.trans htake.2⟩
    · have hrest := ih s left raised
      rw [List.length_cons]
      exact ⟨by omega, hrest.2⟩

/-- The fill asks nothing of a channel it does not name. -/
theorem fillFrom_requests {c : GangId} {head : Nat} {ms : List Gate} {m : Gate} (hm : m ∉ ms) (s : State) (left raised : Nat) :
    (s.fillFrom c head ms left raised).1.requests m = s.requests m := by
  induction ms generalizing s left raised with
  | nil => rfl
  | cons x xs ih =>
    obtain ⟨hx, hxs⟩ := List.ne_and_not_mem_of_not_mem_cons hm
    rw [fillFrom_cons]
    split
    · rw [ih hxs, takeRequest_requests, if_neg fun h => hx h.1]
    · exact ih hxs ..

/-- A channel in FAULT is left by the fill. -/
theorem fillFrom_stays {c : GangId} {head : Nat} {g : Gate} {f : FaultCause} (ms : List Gate) {s : State} {left raised : Nat}
    (hg : (s.chan g).state = .fault f) : (s.fillFrom c head ms left raised).1.chan g = s.chan g := by
  induction ms generalizing s left raised with
  | nil => rfl
  | cons m ms ih =>
    rw [fillFrom_cons]
    split
    · next h =>
      have hne : m ≠ g := fun he => by
        have := fillable_takes (Bool.and_eq_true_iff.mp h).1
        rw [he, hg] at this
        cases this
      have hkeep := takeRequest_stays (s := s) (g := g) (h := m) (by rw [hg]; rfl) hne
        (s.fillOpening m head (s.fillPart m head left)) .compensation .none
      exact (ih (by rw [hkeep]; exact hg)).trans hkeep
    · exact ih hg

/-- The members that may not be filled are passed over. -/
theorem fillFrom_passes {c : GangId} {head : Nat} {before : List Gate} {s : State} (h : ∀ x ∈ before, s.fillable c x = false)
    (ms : List Gate) (left raised : Nat) : s.fillFrom c head (before ++ ms) left raised = s.fillFrom c head ms left raised := by
  induction before with
  | nil => rfl
  | cons x xs ih =>
    rw [List.cons_append, fillFrom_cons, if_neg (by rw [h x (List.mem_cons_self ..), Bool.false_and]; decide)]
    exact ih fun y hy => h y (List.mem_cons_of_mem _ hy)

/-- The first member that may be filled takes its part. -/
theorem fillFrom_first {s : State} {c : GangId} {head : Nat} {before after : List Gate} {m : Gate}
    (hb : ∀ x ∈ before, s.fillable c x = false) (hm : s.fillable c m = true) (ha : m ∉ after) {left : Nat}
    (hp : 0 < s.fillPart m head left) (raised : Nat) : (s.fillFrom c head (before ++ m :: after) left raised).1.requests m
      = (some (s.fillOpening m head (s.fillPart m head left)), .compensation, .none) := by
  rw [fillFrom_passes hb, fillFrom_cons, if_pos (by rw [hm, decide_eq_true hp]; rfl), fillFrom_requests ha, takeRequest_requests,
    if_pos ⟨rfl, fillable_takes hm⟩]

theorem membersOf_length (p : Plan) (c : GangId) : (p.membersOf c).length ≤ 8 := by
  unfold Plan.membersOf GangEntry.memberGates GangEntry.memberList
  split
  · refine (List.length_filterMap_le _ _).trans ((List.length_take_le' _ _).trans ?_)
    exact le_of_eq (Tab.len _)
  · exact Nat.zero_le _

/-- COMPENSATION follows a fill, when nine places more are free. -/
theorem takeDeficit_notice {s : State} {k : StationId} {c : GangId} {deficit : Nat}
    (h : s.portD.own.length + s.portD.reserved + 9 ≤ 32) : ∃ n covered, OwnFrame.notice n ∈ (s.takeDeficit k c deficit).portD.own
      ∧ n.kind = .compensation ∧ n.subject = .station k.1 ∧ n.value = packValue deficit covered
      ∧ covered ≤ min deficit ((s.station k).qmax - s.planned k) := by
  have hlen := fillFrom_own_length c (s.headOf k) (s.members c) s (min deficit ((s.station k).qmax - s.planned k)) 0
  have hmem := membersOf_length s.active c
  unfold State.takeDeficit
  simp only
  generalize s.fillFrom c (s.headOf k) (s.members c) (min deficit ((s.station k).qmax - s.planned k)) 0 = x at hlen
  have hroom : x.1.ownRoom = true := decide_eq_true (by
    have : (s.members c).length ≤ 8 := hmem
    rw [hlen.2]
    show _ < 32
    omega)
  rw [notify_own _ _ _ _ _ hroom]
  exact ⟨_, _, List.mem_append_right _ (List.mem_singleton_self _), rfl, rfl, rfl, Nat.sub_le _ _⟩

/-! ### The frame's parts -/

/-- What a flag does to the channel, after the position is written (R5 to R8). -/
def State.flagged (s : State) (g : Gate) (before : Channel) (o : Nat) (f : PositionFlag) : State :=
  match f with
  | .clear => s.positionClear g before o
  | .localHand => s.positionLocal g before o
  | .fault => s.positionFault g before o
  | .trip => s.positionTrip g before o

/-- From a quiet state a POSITION frame ends with the channels, gangs and own frames of its channel's event. -/
theorem exec_flagged {s : State} (hq : s.quiet) (dest : Byte) {p : List Byte} {g : Gate} (hl : p.length = 4) (hg : byteAt p 0 = g.1)
    (hu : (s.chan g).state ≠ .unbound) : ∃ kind t, exec (.position dest p) s = .next t
      ∧ let v := (((s.countF PortCounts.addReceived).placed g (min (fieldAt p 1 2) 1000)).flagged g (s.chan g)
          (min (fieldAt p 1 2) 1000) (severest (p.getD 3 0#8))).chanEvent kind g
        (∀ h, t.chan h = v.chan h) ∧ (∀ c, t.gang c = v.gang c) ∧ t.portD.own = v.portD.own := by
  have htake : ∃ kind, (s.countF PortCounts.addReceived).takePosition g (fieldAt p 1 2) (p.getD 3 0#8)
      = (((s.countF PortCounts.addReceived).placed g (min (fieldAt p 1 2) 1000)).flagged g (s.chan g)
          (min (fieldAt p 1 2) 1000) (severest (p.getD 3 0#8))).chanEvent kind g := by
    unfold State.takePosition State.flagged
    simp only
    rw [if_neg (show ((s.countF PortCounts.addReceived).chan g).state ≠ .unbound from hu)]
    cases severest (p.getD 3 0#8) <;> exact ⟨_, rfl⟩
  obtain ⟨kind, hk⟩ := htake
  refine ⟨kind, _, exec_position hq dest hl hg, fun h => ?_, fun c => ?_, ?_⟩
  · rw [hk]
    refine (congrArg (fun x => Tab.get x h) (finish_chans _)).trans ?_
    exact chan_of_sameBut (by decide) (forwardUp_sameBut _ _) h
  · rw [hk]
    exact (gang_of_sameBut (by decide) (finish_sameBut _) c).trans (gang_of_sameBut (by decide) (forwardUp_sameBut _ _) c)
  · rw [hk, finish_portD, forwardUp_own]

theorem positionLocal_other {s : State} {g : Gate} {before : Channel} {o : Nat} (h : before.state ≠ .localHand) :
    s.positionLocal g before o = (s.enter g .localHand).notify .gateLocal (.gate g.1) (packDetail 0 before.state.code) o :=
  if_neg h

theorem positionFault_other {s : State} {g : Gate} {before : Channel} {o : Nat} (h : ∀ c, before.state ≠ .fault c) :
    s.positionFault g before o = (s.enter g (.fault .drive)).notify .gateFault (.gate g.1) (packDetail 0 before.state.code) o := by
  unfold State.positionFault
  split
  · next hf => exact absurd hf (h _)
  · rfl

theorem positionFault_fault {s : State} {g : Gate} {before : Channel} {o : Nat} {c : FaultCause} (h : before.state = .fault c) :
    s.positionFault g before o = s := by
  unfold State.positionFault
  rw [h]

/-- A channel with a notice behind its new state, through its event. -/
theorem stopped_by_flag {s w : State} {g : Gate} (hw : SameBut [.chans, .portF] s w) (hst : (w.chan g).state.stays = true)
    (kind : NoticeKind) (subject : Subject) (d v : Nat) (gc : GangCause) :
    ((w.notify kind subject d v).chanEvent gc g).chan g = w.chan g
      ∧ ∀ {t : State}, t.portD.own = ((w.notify kind subject d v).chanEvent gc g).portD.own → Noticed s t kind subject d v := by
  have hline : w.portD = s.portD := hw .portD (by decide)
  have hreport : w.report = s.report := hw .report (by decide)
  refine ⟨(turns_stays hst).chanEvent _ _ ((turns_stays hst).notice _ _ _ _ _ rfl), fun ht => ?_⟩
  refine noticed_of_prefix (w := w) (by rw [hline]) (by rw [hline]) (by rw [hreport]) (hw .clock (by decide)).1 fun l hl => ?_
  rw [ht]
  exact (keeps_own l).chanEvent gc g hl

/-! ### A wicket gate's trip -/

/-- The trip written: the opening reported as the governed target, the channel in FAULT (R7). -/
def State.tripped (s : State) (g : Gate) (o : Nat) : State :=
  (s.setChan g { s.chan g with governed := some o }).enter g (.fault .trip)

theorem tripped_sameBut (s : State) (g : Gate) (o : Nat) : SameBut [.chans, .portF] s (s.tripped g o) :=
  ((setChan_sameBut _ _ _).mono (by decide)).trans (enter_sameBut _ _ _)

theorem tripped_chan_self (s : State) (g : Gate) (o : Nat) :
    (s.tripped g o).chan g = ({ s.chan g with governed := some o } : Channel).inState (.fault .trip) := by
  unfold State.tripped
  rw [enter_chan_self, chan_setChan_self]

theorem tripped_chan_ne (s : State) {g h : Gate} (o : Nat) (hne : h ≠ g) : (s.tripped g o).chan h = s.chan h := by
  unfold State.tripped
  rw [enter_chan_ne _ _ hne, chan_setChan_ne _ _ hne]

theorem positionTrip_wicket {s : State} {g : Gate} {before : Channel} {o : Nat} (hw : (s.gateEntry g).isWicket = true)
    (h : before.state ≠ .fault .trip) : s.positionTrip g before o
      = ((s.tripped g o).notify .gateTrip (.gate g.1) (packDetail 0 before.state.code) (before.measured.getD 65535)).takeTrip g
          before.measured := by
  unfold State.positionTrip
  rw [if_pos hw]
  exact if_neg h

theorem positionTrip_again {s : State} {g : Gate} {before : Channel} {o : Nat} (hw : (s.gateEntry g).isWicket = true)
    (h : before.state = .fault .trip) : s.positionTrip g before o = s.setChan g { s.chan g with governed := some o } := by
  unfold State.positionTrip
  rw [if_pos hw]
  exact if_pos h

theorem positionTrip_other {s : State} {g : Gate} {before : Channel} {o : Nat} (hw : (s.gateEntry g).isWicket = false) :
    s.positionTrip g before o = s.positionFault g before o := if_neg (by rw [hw]; decide)

/-- A channel in FAULT is left by the fill its trip causes. -/
theorem takeTrip_stays {s : State} {g : Gate} {f : FaultCause} (hg : (s.chan g).state = .fault f) (former : Option Nat) :
    (s.takeTrip g former).chan g = s.chan g := by
  unfold State.takeTrip
  split
  · rfl
  · split
    · simp only
      split
      · unfold State.takeDeficit
        simp only
        rw [chan_notify]
        exact fillFrom_stays _ hg
      · rfl
    · rfl

theorem takeTrip_deficit {s : State} {g : Gate} {k : StationId} {c : GangId} {o : Nat} (hk : (s.gateEntry g).station? = some k)
    (hc : (s.stationEntry k).compGang? = some c) (hd : 0 < s.rate g (s.headOf k) o) :
    s.takeTrip g (some o) = s.takeDeficit k c (s.rate g (s.headOf k) o) := by
  unfold State.takeTrip
  rw [hk]
  simp only
  rw [hc]
  exact if_pos hd

/-- What a fill reads is the plan, the records of the stations, and the channels. -/
theorem rate_congr {s t : State} (ha : t.active = s.active) (g : Gate) (head o : Nat) : t.rate g head o = s.rate g head o := by
  unfold State.rate State.gateEntry
  rw [ha]

theorem headOf_congr {s t : State} (ha : t.active = s.active) (hst : t.stations = s.stations) (k : StationId) :
    t.headOf k = s.headOf k := by
  unfold State.headOf State.stationEntry State.station
  rw [ha, hst]

theorem fillable_congr {s t : State} {c : GangId} {m : Gate} (hg : t.gang c = s.gang c) (hc : t.chan m = s.chan m) :
    t.fillable c m = s.fillable c m := by
  unfold State.fillable
  rw [hg, hc]

theorem fillable_fault {s : State} {c : GangId} {m : Gate} {f : FaultCause} (h : (s.chan m).state = .fault f) :
    s.fillable c m = false := by
  unfold State.fillable
  rw [h, Bool.and_false]

/-- The planned outflow of a station once a gate's channel alone has changed. -/
theorem planned_after {s t : State} {k : StationId} {g : Gate} (hb : s.active.boundTo k g = true) (ha : t.active = s.active)
    (hst : t.stations = s.stations) (hothers : ∀ h, h ≠ g → t.chan h = s.chan h) : t.planned k
      = s.plannedExcept k (fun h => h == g) + s.rate g (s.headOf k) (t.chan g).plannedOpening := by
  rw [planned_eq t (g := g) (by rw [ha]; exact hb), rate_congr ha, headOf_congr ha hst]
  congr 1
  unfold State.plannedExcept
  rw [ha, headOf_congr ha hst]
  refine congrArg List.sum (List.map_congr_left fun h hm => ?_)
  have hne : h ≠ g := by simpa using (List.mem_filter.mp hm).2
  rw [rate_congr ha, hothers h hne]

theorem plannedOpening_governed {c : Channel} {o : Nat} (h : c.governed = some o) : c.plannedOpening = o := by
  unfold Channel.plannedOpening
  rw [h]
  rfl

end Sys2Proof.Machine
end

section
/-! POSITION frames with a flag, continued: what each leaves (R5 to R7, R60, R86). -/

namespace Sys2Proof.Machine

theorem takeDeficit_requests (s : State) (k : StationId) (c : GangId) (deficit : Nat) : (s.takeDeficit k c deficit).requests
    = (s.fillFrom c (s.headOf k) (s.members c) (min deficit ((s.station k).qmax - s.planned k)) 0).1.requests :=
  blind_requests.notify _ _ _ _ _

theorem fillPart_congr {s t : State} (ha : t.active = s.active) {m : Gate} (hm : t.chan m = s.chan m) (head left : Nat) :
    t.fillPart m head left = s.fillPart m head left := by
  unfold State.fillPart
  rw [rate_congr ha, rate_congr ha, hm]

theorem fillOpening_surface {s t : State} (ha : t.active = s.active) {m : Gate} (hm : t.chan m = s.chan m) {f : SurfaceId}
    (hf : (s.gateEntry m).surface = f.1) (head part : Nat) : t.fillOpening m head part
      = (lowerInverse (s.active.surfaces.get f) head ((s.rate m head (s.chan m).plannedOpening + part : Nat) : Int)).1 := by
  have hentry : t.gateEntry m = s.gateEntry m := by
    unfold State.gateEntry
    rw [ha]
  unfold State.fillOpening
  rw [hentry, hf, toFin?_val, rate_congr ha, hm, ha]

/-- What a trip's fill finds: the plan, the stations, the gangs and the other channels of before, the tripped channel in FAULT at
its new opening, and one notice more. -/
structure TrippedFrom (s u : State) (g : Gate) (o : Nat) : Prop where
  active : u.active = s.active
  stations : u.stations = s.stations
  gangs : ∀ c, u.gang c = s.gang c
  others : ∀ h, h ≠ g → u.chan h = s.chan h
  fault : (u.chan g).state = .fault .trip
  governed : (u.chan g).governed = some o
  room : u.portD.own.length ≤ s.portD.own.length + 1
  reserved : u.portD.reserved = s.portD.reserved

section fill

variable {s u : State} {g : Gate} {o : Nat} (h : TrippedFrom s u g o) {k : StationId} {c : GangId}
  (hk : s.active.boundTo k g = true) (hc : (s.stationEntry k).compGang? = some c) {former : Nat}
  (hd : 0 < s.rate g (s.headOf k) former)

include h hk

/-- The room that the window leaves the fill. -/
theorem TrippedFrom.fillRoom : min (s.rate g (s.headOf k) former) ((u.station k).qmax - u.planned k)
    = min (s.rate g (s.headOf k) former)
      ((s.station k).qmax - (s.plannedExcept k (fun h => h == g) + s.rate g (s.headOf k) o)) := by
  have hstation : u.station k = s.station k := congrArg (fun x => Tab.get x k) h.stations
  rw [planned_after hk h.active h.stations h.others, plannedOpening_governed h.governed, hstation]

include hc hd

theorem TrippedFrom.fills : u.takeTrip g (some former) = u.takeDeficit k c (s.rate g (s.headOf k) former) := by
  have hst : (u.gateEntry g).station? = some k := by
    unfold State.gateEntry
    rw [h.active]
    exact of_decide_eq_true (Bool.and_eq_true_iff.mp hk).2
  have hcomp : (u.stationEntry k).compGang? = some c := by
    unfold State.stationEntry
    rw [h.active]
    exact hc
  have hrate : u.rate g (u.headOf k) former = s.rate g (s.headOf k) former := by
    rw [headOf_congr h.active h.stations, rate_congr h.active]
  rw [takeTrip_deficit hst hcomp (by rw [hrate]; exact hd), hrate]

/-- COMPENSATION is sent for the deficit, with no more covered than the room. -/
theorem TrippedFrom.notice (hroom : s.portD.own.length + s.portD.reserved + 10 ≤ 32) :
    ∃ n covered, OwnFrame.notice n ∈ (u.takeTrip g (some former)).portD.own ∧ n.kind = .compensation ∧ n.subject = .station k.1
      ∧ n.value = packValue (s.rate g (s.headOf k) former) covered ∧ covered ≤ min (s.rate g (s.headOf k) former)
        ((s.station k).qmax - (s.plannedExcept k (fun h => h == g) + s.rate g (s.headOf k) o)) := by
  rw [h.fills hk hc hd, ← h.fillRoom hk]
  have hone := h.room
  have hres := h.reserved
  exact takeDeficit_notice (by omega)

/-- The first member that may be filled takes its part of the room. -/
theorem TrippedFrom.first {before after : List Gate} {m : Gate} {f : SurfaceId} (hms : s.members c = before ++ m :: after)
    (hne : m ≠ g) (ha : m ∉ after) (hb : ∀ x ∈ before, s.fillable c x = false) (hm : s.fillable c m = true)
    (hf : (s.gateEntry m).surface = f.1) {part : Nat} (hpart : part = s.fillPart m (s.headOf k) (min (s.rate g (s.headOf k) former)
      ((s.station k).qmax - (s.plannedExcept k (fun h => h == g) + s.rate g (s.headOf k) o)))) (hp : 0 < part) :
    (u.takeTrip g (some former)).requests m = (some (lowerInverse (s.active.surfaces.get f) (s.headOf k)
      ((s.rate m (s.headOf k) (s.chan m).plannedOpening + part : Nat) : Int)).1, .compensation, .none) := by
  subst hpart
  have hmembers : u.members c = before ++ m :: after := by
    unfold State.members
    rw [h.active]
    exact hms
  have hpass : ∀ x ∈ before, u.fillable c x = false := fun x hx => by
    by_cases hg : x = g
    · rw [hg]
      exact fillable_fault h.fault
    · rw [fillable_congr (h.gangs c) (h.others x hg)]
      exact hb x hx
  have hfill : u.fillable c m = true := by
    rw [fillable_congr (h.gangs c) (h.others m hne)]
    exact hm
  have hsame := fillPart_congr h.active (h.others m hne) (s.headOf k) (min (s.rate g (s.headOf k) former)
    ((s.station k).qmax - (s.plannedExcept k (fun h => h == g) + s.rate g (s.headOf k) o)))
  rw [h.fills hk hc hd, takeDeficit_requests, h.fillRoom hk, headOf_congr h.active h.stations, hmembers,
    fillFrom_first hpass hfill ha (by rw [hsame]; exact hp), hsame, fillOpening_surface h.active (h.others m hne) hf]

end fill

/-- Settles O22: flag by flag. -/
theorem flaggedPositionMovesTheChannel : Obligations.FlaggedPositionMovesTheChannel := by
  intro s dest p g hq hl hg hu
  obtain ⟨kind, t, hexec, hchan, hgang, hown⟩ := exec_flagged hq dest hl hg hu
  generalize min (fieldAt p 1 2) 1000 = o at *
  have hplaced : SameBut [.chans, .portF] s ((s.countF PortCounts.addReceived).placed g o) :=
    ((countF_sameBut s _).mono (by decide)).trans ((placed_sameBut _ _ _).mono (by decide))
  have hself : ((s.countF PortCounts.addReceived).placed g o).chan g = (s.chan g).withPosition o := placed_chan_self ..
  have hother : ∀ h, h ≠ g → ((s.countF PortCounts.addReceived).placed g o).chan h = s.chan h := fun h hne => placed_chan_ne _ _ hne
  have hactive : ((s.countF PortCounts.addReceived).placed g o).active = s.active := rfl
  have hgangs : ∀ c, ((s.countF PortCounts.addReceived).placed g o).gang c = s.gang c := fun _ => rfl
  have hentry : ((s.countF PortCounts.addReceived).placed g o).gateEntry g = s.gateEntry g := rfl
  generalize (s.countF PortCounts.addReceived).placed g o = u at *
  have henter : ∀ st, SameBut [.chans, .portF] s (u.enter g st) := fun st => hplaced.trans (enter_sameBut _ _ _)
  have hreq : ∀ {w : State}, w.requests = u.requests → (w.chanEvent kind g).requests g = ((s.chan g).governed, (s.chan g).source,
      (s.chan g).clamp) := fun hw => by
    rw [blind_requests.chanEvent, hw]
    unfold State.requests
    rw [hself]
    rfl
  refine ⟨t, hexec, fun hf => ?_, fun hf => ?_, fun hf hw => ?_, fun hf c hc ho hp => ?_⟩
  · rw [hf] at hchan hown
    have hr := hreq (w := u.positionLocal g (s.chan g) o) (blind_requests.positionLocal _ _ _ _)
    simp only [State.requests, Prod.mk.injEq] at hr
    obtain ⟨hgov, hsrc, _⟩ := hr
    refine ⟨?_, by rw [hchan]; exact hgov, by rw [hchan]; exact hsrc, fun hn => ?_⟩
    · rw [hchan]
      by_cases hloc : (s.chan g).state = .localHand
      · have hst : (u.chan g).state = .localHand := by rw [hself]; exact hloc
        show ((State.chanEvent (u.positionLocal g (s.chan g) o) kind g).chan g).state = _
        rw [show u.positionLocal g (s.chan g) o = u from if_pos hloc,
          (turns_stays (c := u.chan g) (by rw [hst]; rfl)).chanEvent kind g rfl, hst]
      · have hst : ((u.enter g .localHand).chan g).state = .localHand := by rw [enter_chan_self]; rfl
        show ((State.chanEvent (u.positionLocal g (s.chan g) o) kind g).chan g).state = _
        rw [positionLocal_other hloc, (stopped_by_flag (henter .localHand) (by rw [hst]; rfl) _ _ _ _ kind).1, hst]
    · have hst : ((u.enter g .localHand).chan g).state = .localHand := by rw [enter_chan_self]; rfl
      rw [← packDetail_zero (s.chan g).state.code]
      refine (stopped_by_flag (henter .localHand) (by rw [hst]; rfl) _ _ _ _ kind).2 ?_
      rw [hown]
      show (State.chanEvent (u.positionLocal g (s.chan g) o) kind g).portD.own = _
      rw [positionLocal_other hn]
  · have hflag : u.flagged g (s.chan g) o (severest (p.getD 3 0#8)) = u.positionFault g (s.chan g) o := by
      rcases hf with hf | ⟨hf, hw⟩ <;> rw [hf]
      · rfl
      · exact positionTrip_other (by rw [hentry]; exact hw)
    rw [hflag] at hchan hown
    have hr := hreq (w := u.positionFault g (s.chan g) o) (blind_requests.positionFault _ _ _ _)
    simp only [State.requests, Prod.mk.injEq] at hr
    obtain ⟨hgov, hsrc, _⟩ := hr
    refine ⟨by rw [hchan]; exact hgov, by rw [hchan]; exact hsrc, fun hn => ?_, fun c hc => ?_⟩
    · have hst : ((u.enter g (.fault .drive)).chan g).state = .fault .drive := by rw [enter_chan_self]; rfl
      obtain ⟨hkeep, hnote⟩ := stopped_by_flag (henter (.fault .drive)) (by rw [hst]; rfl) .gateFault (.gate g.1)
        (packDetail 0 (s.chan g).state.code) o kind
      rw [positionFault_other hn] at hchan hown
      refine ⟨by rw [hchan, hkeep, hst], ?_⟩
      rw [← packDetail_zero (s.chan g).state.code]
      exact hnote hown
    · have hst : (u.chan g).state = .fault c := by rw [hself]; exact hc
      rw [hchan, positionFault_fault hc, (turns_stays (c := u.chan g) (by rw [hst]; rfl)).chanEvent kind g rfl, hst]
  · rw [hf] at hchan hown
    have hw' : (u.gateEntry g).isWicket = true := by rw [hentry]; exact hw
    by_cases hagain : (s.chan g).state = .fault .trip
    · have hflag : u.flagged g (s.chan g) o .trip = u.setChan g { u.chan g with governed := some o } := positionTrip_again hw' hagain
      rw [hflag] at hchan
      have hst : ((u.setChan g { u.chan g with governed := some o }).chan g) = { u.chan g with governed := some o } :=
        chan_setChan_self ..
      have hkeep := (turns_stays (c := { u.chan g with governed := some o })
        (by rw [hself]; show (s.chan g).state.stays = true; rw [hagain]; rfl)).chanEvent kind g hst
      refine ⟨?_, ?_, fun hn => absurd hagain hn, fun k c o' hn => absurd hagain hn⟩
      · rw [hchan, hkeep, hself]
        exact hagain
      · rw [hchan, hkeep]
    · have hflag : u.flagged g (s.chan g) o .trip = ((u.tripped g o).notify .gateTrip (.gate g.1)
          (packDetail 0 (s.chan g).state.code) ((s.chan g).measured.getD 65535)).takeTrip g (s.chan g).measured :=
        positionTrip_wicket hw' hagain
      rw [hflag] at hchan hown
      have htrip : SameBut [.chans, .portF] s (u.tripped g o) := hplaced.trans (tripped_sameBut _ _ _)
      have hsame : SameBut [.chans, .portF, .portD, .report] s ((u.tripped g o).notify .gateTrip (.gate g.1)
          (packDetail 0 (s.chan g).state.code) ((s.chan g).measured.getD 65535)) :=
        (htrip.mono (by decide)).trans ((notify_sameBut _ _ _ _ _).mono (by decide))
      have hrec := tripped_chan_self u g o
      have hline : (u.tripped g o).portD = s.portD := htrip .portD (by decide)
      have hlen := notify_own_length (u.tripped g o) .gateTrip (.gate g.1) (packDetail 0 (s.chan g).state.code)
        ((s.chan g).measured.getD 65535)
      rw [hline] at hlen
      have htripped : TrippedFrom s ((u.tripped g o).notify .gateTrip (.gate g.1) (packDetail 0 (s.chan g).state.code)
          ((s.chan g).measured.getD 65535)) g o :=
        { active := active_of_sameBut (by decide) hsame
          stations := hsame .stations (by decide)
          gangs := gang_of_sameBut (by decide) hsame
          others := fun h hne => by rw [chan_notify, tripped_chan_ne _ _ hne, hother h hne]
          fault := by rw [chan_notify, hrec]; rfl
          governed := by rw [chan_notify, hrec]; rfl
          room := hlen.1
          reserved := hlen.2 }
      have hnote : ∀ l, l <+: ((u.tripped g o).notify .gateTrip (.gate g.1) (packDetail 0 (s.chan g).state.code)
          ((s.chan g).measured.getD 65535)).portD.own → l <+: t.portD.own := fun l hl => by
        rw [hown]
        exact (keeps_own l).chanEvent kind g ((keeps_own l).takeTrip g _ hl)
      have hreport : (u.tripped g o).report = s.report := htrip .report (by decide)
      have hwritten := chan_notify (u.tripped g o) .gateTrip (.gate g.1) (packDetail 0 (s.chan g).state.code)
        ((s.chan g).measured.getD 65535) g
      generalize hv : (u.tripped g o).notify .gateTrip (.gate g.1) (packDetail 0 (s.chan g).state.code)
        ((s.chan g).measured.getD 65535) = v at *
      have hkeep : t.chan g = v.chan g := by
        rw [hchan]
        have hstay := takeTrip_stays htripped.fault (s.chan g).measured
        exact (turns_stays (c := v.chan g) (by rw [htripped.fault]; rfl)).chanEvent kind g hstay
      refine ⟨by rw [hkeep]; exact htripped.fault, by rw [hkeep]; exact htripped.governed, fun _ => ?_,
        fun k c former _ hk hc hm hd => ⟨fun hroom => ?_, fun before after m f hms hne hafter hb hfill hsurf => ?_⟩⟩
      · rw [← packDetail_zero (s.chan g).state.code]
        refine noticed_of_prefix (w := u.tripped g o) (by rw [hline]) (by rw [hline]) (by rw [hreport]) (htrip .clock (by decide)).1
          fun l hl => hnote l (by rw [← hv]; exact hl)
      · rw [hm] at hown
        obtain ⟨n, covered, hmem, hrest⟩ := htripped.notice hk hc hd hroom
        refine ⟨n, covered, ?_, hrest⟩
        rw [hown]
        exact ((keeps_own _).chanEvent kind g (List.prefix_refl _)).subset hmem
      · intro present part hpos
        have hreq := congrFun (blind_requests.chanEvent (v.takeTrip g (some former)) kind g) m
        rw [htripped.first hk hc hd hms hne hafter hb hfill hsurf (part := part) rfl hpos] at hreq
        rw [hm] at hchan
        simp only [State.requests, Prod.mk.injEq] at hreq
        obtain ⟨hgov, hsrc, hclamp⟩ := hreq
        rw [hchan]
        exact ⟨hsrc, hclamp, hgov⟩
  · rw [hf] at hchan hgang
    have hfault : ∃ f, ((u.positionFault g (s.chan g) o).chan g).state = .fault f := by
      by_cases hn : ∃ f, (s.chan g).state = .fault f
      · obtain ⟨f, hf⟩ := hn
        rw [positionFault_fault hf]
        exact ⟨f, by rw [hself]; exact hf⟩
      · rw [positionFault_other fun f h => hn ⟨f, h⟩, chan_notify, enter_chan_self]
        exact ⟨_, rfl⟩
    have hframe : (u.positionFault g (s.chan g) o).active = s.active ∧ (∀ h, h ≠ g → (u.positionFault g (s.chan g) o).chan h = s.chan h)
        ∧ ∀ c, (u.positionFault g (s.chan g) o).gang c = s.gang c := by
      by_cases hn : ∃ f, (s.chan g).state = .fault f
      · obtain ⟨f, hf⟩ := hn
        rw [positionFault_fault hf]
        exact ⟨hactive, hother, hgangs⟩
      · rw [positionFault_other fun f h => hn ⟨f, h⟩]
        refine ⟨?_, fun h hne => ?_, fun c => ?_⟩
        · rw [notify_active, quiet_active.enter, hactive]
        · rw [chan_notify, enter_chan_ne _ _ hne, hother h hne]
        · rw [gang_notify, gang_of_sameBut (by decide) (enter_sameBut _ _ _), hgangs]
    change ∀ h, t.chan h = ((u.positionFault g (s.chan g) o).chanEvent kind g).chan h at hchan
    change ∀ c, t.gang c = ((u.positionFault g (s.chan g) o).chanEvent kind g).gang c at hgang
    generalize u.positionFault g (s.chan g) o = w at *
    obtain ⟨f, hst⟩ := hfault
    obtain ⟨ha, hothers, hsame⟩ := hframe
    have hmembers : w.members c = s.members c := by
      unfold State.members
      rw [ha]
    have hblock : w.blockers c ≠ [] := List.ne_nil_of_mem (mem_blockers.mpr ⟨by rw [hmembers]; exact mem_of_gangOf hc,
      by rw [hsame]; exact ho, by rw [hst]; rfl⟩)
    have hpresent : (w.gangEntry c).isPresent = true := by
      unfold State.gangEntry
      rw [ha]
      exact hp
    obtain ⟨hhold, hin, _⟩ := gangEvent_blocked hpresent hblock kind g
    rw [chanEvent_gang (by rw [ha]; exact hc)] at hchan hgang
    refine ⟨by rw [hgang]; exact hhold, fun m hm hne hout hmove => ?_⟩
    have hholdable : m ∈ w.holdable c := mem_holdable.mpr ⟨by rw [hmembers]; exact hm, by rw [hsame]; exact hout,
      by rw [hothers m hne]; exact hmove⟩
    rw [hchan, hin m hholdable]
    rfl

end Sys2Proof.Machine
end

section
/-! Requests from inside the part: the fallback of a silent station and the schedule (R114, R115, R121, R136). -/

namespace Sys2Proof.Machine

/-! ### A request from inside the part -/

/-- The window clamp reads the plan, the station records and the channels. -/
theorem windowClamp_congr {s t : State} (hc : t.chans = s.chans) (hst : t.stations = s.stations) (ha : t.active = s.active)
    (k : StationId) (g : Gate) (r : Nat) (b : Bool) : t.windowClamp k g r b = s.windowClamp k g r b := by
  have hchan : ∀ h, t.chan h = s.chan h := fun h => congrArg (fun x => Tab.get x h) hc
  have hhead : t.headOf k = s.headOf k := headOf_congr ha hst k
  have hplan : t.plannedExcept k (fun h => h == g) = s.plannedExcept k fun h => h == g := by
    unfold State.plannedExcept
    rw [ha, hhead]
    exact congrArg List.sum (List.map_congr_left fun h _ => by rw [rate_congr ha, hchan])
  have hbounds : t.clampBounds k g = s.clampBounds k g := by
    unfold State.clampBounds
    rw [hplan, hhead, hchan, ha, show t.station k = s.station k from congrArg (fun x => Tab.get x k) hst,
      show t.gateEntry g = s.gateEntry g from congrArg (fun x : Plan => Tab.get x.gates g) ha]
  unfold State.windowClamp
  rw [hbounds]

theorem clampAndTake_eq (s : State) (k : StationId) (g : Gate) (o : Nat) (src : Source) : s.clampAndTake k g o src
    = (s.takeRequest g (s.windowClamp k g o false).1 src (s.windowClamp k g o false).2).notifyClamp g
        (s.windowClamp k g o false).2 src o (s.windowClamp k g o false).1 := rfl

theorem notifyClamp_chan (s : State) (g : Gate) (mark : ClampMark) (src : Source) (received target : Nat) (h : Gate) :
    (s.notifyClamp g mark src received target).chan h = s.chan h := by
  unfold State.notifyClamp
  split
  · rfl
  · exact chan_notify ..

/-- A clamped request is its channel's, if it takes requests; every other channel keeps its own. -/
theorem clampAndTake_requests (s : State) (k : StationId) (g : Gate) (o : Nat) (src : Source) (h : Gate) :
    (s.clampAndTake k g o src).requests h = if h = g ∧ (s.chan g).state.takes = true then
      (some (s.windowClamp k g o false).1, src, (s.windowClamp k g o false).2) else s.requests h := by
  rw [clampAndTake_eq, blind_requests.notifyClamp, takeRequest_requests]

/-- The gang machinery leaves a channel that takes requests one that does. -/
theorem turns_takes (g : Gate) : Turns fun s => (s.chan g).state.takes = true where
  gang _ _ _ h := h
  waits _ _ _ h := h
  notice s kind subject d v h := by rw [chan_notify]; exact h
  start s i target _ _ _ h := by
    rw [startIncrement_chan]
    split
    · rfl
    · exact h
  hold s i _ h := by
    rw [enter_chan]
    split
    · rfl
    · exact h
  wake s i _ h := by
    rw [enter_chan]
    split
    · rfl
    · exact h
  free s i _ h := by
    rw [enter_chan]
    split
    · show (s.afterGangHold i).takes = true
      unfold State.afterGangHold
      split <;> rfl
    · exact h

/-- The gang machinery marks no channel for the silence hold. -/
theorem turns_unmarked (g : Gate) : Turns fun s => (s.chan g).silencePending = false where
  gang _ _ _ h := h
  waits _ _ _ h := h
  notice s kind subject d v h := by rw [chan_notify]; exact h
  start s i target _ _ _ h := by
    rw [startIncrement_chan]
    split
    · next he => subst he; exact h
    · exact h
  hold s i _ h := by
    rw [enter_chan]
    split
    · exact inState_of_ne_step rfl
    · exact h
  wake s i _ h := by
    rw [enter_chan]
    split
    · exact inState_of_ne_step rfl
    · exact h
  free s i _ h := by
    rw [enter_chan]
    split
    · refine inState_of_ne_step ?_
      unfold State.afterGangHold
      split <;> rfl
    · exact h

/-- A clamped request to any channel leaves a channel that takes requests one that does. -/
theorem clampAndTake_takes {s : State} {g : Gate} (h : (s.chan g).state.takes = true) (k : StationId) (i : Gate) (o : Nat)
    (src : Source) : ((s.clampAndTake k i o src).chan g).state.takes = true := by
  rw [clampAndTake_eq, notifyClamp_chan]
  cases ht : (s.chan i).state.takes with
  | false =>
    rw [takeRequest_refuses ht]
    exact h
  | true =>
    rw [takeRequest_takes ht]
    refine (turns_takes g).chanEvent _ _ ?_
    rw [supersede_chan, requested_chan]
    by_cases hg : g = i
    · subst hg
      rw [if_pos rfl]
      split
      · rfl
      · exact h
    · rw [if_neg hg]
      exact h

/-- A clamped request clears its own channel's pending mark and sets none. -/
theorem clampAndTake_unmarked {s : State} {g i : Gate} (h : (s.chan g).silencePending = false
    ∨ g = i ∧ (s.chan i).state.takes = true) (k : StationId) (o : Nat) (src : Source) :
    ((s.clampAndTake k i o src).chan g).silencePending = false := by
  rw [clampAndTake_eq, notifyClamp_chan]
  cases ht : (s.chan i).state.takes with
  | false =>
    rw [takeRequest_refuses ht]
    rcases h with h | ⟨_, h⟩
    · exact h
    · rw [ht] at h
      cases h
  | true =>
    rw [takeRequest_takes ht]
    refine (turns_unmarked g).chanEvent _ _ ?_
    rw [supersede_chan, requested_chan]
    by_cases hg : g = i
    · subst hg
      rw [if_pos rfl]
      split <;> rfl
    · rw [if_neg hg]
      exact h.resolve_right fun hr => hg hr.1

/-! ### The second silence expiry -/

theorem giveFallback_cons (s : State) (k : StationId) (g : Gate) (t : Nat) (rest : List (Gate × Nat)) (n : Nat) :
    (s.giveFallback k ((g, t) :: rest) n).1 = ((s.clampAndTake k g t .fallback).giveFallback k rest
      (if (s.windowClamp k g t false).2 = .none then n else n + 1)).1 := rfl

/-- Channels that the fallback does not name keep their requests. -/
theorem giveFallback_others {k : StationId} {list : List (Gate × Nat)} {h : Gate} (hn : h ∉ list.map Prod.fst) (s : State) (n : Nat) :
    (s.giveFallback k list n).1.requests h = s.requests h := by
  induction list generalizing s n with
  | nil => rfl
  | cons x xs ih =>
    obtain ⟨g, t⟩ := x
    obtain ⟨hg, hxs⟩ := List.ne_and_not_mem_of_not_mem_cons hn
    rw [giveFallback_cons, ih hxs, clampAndTake_requests, if_neg fun he => hg he.1]

theorem giveFallback_takes {k : StationId} {g : Gate} (list : List (Gate × Nat)) {s : State} {n : Nat}
    (h : (s.chan g).state.takes = true) : ((s.giveFallback k list n).1.chan g).state.takes = true := by
  induction list generalizing s n with
  | nil => exact h
  | cons x xs ih => exact ih (clampAndTake_takes h ..)

theorem giveFallback_unmarked {k : StationId} {g : Gate} (list : List (Gate × Nat)) {s : State} {n : Nat}
    (h : (s.chan g).silencePending = false) : ((s.giveFallback k list n).1.chan g).silencePending = false := by
  induction list generalizing s n with
  | nil => exact h
  | cons x xs ih => exact ih (clampAndTake_unmarked (.inl h) ..)

/-- A channel that the fallback names has source FALLBACK and no pending mark. -/
theorem giveFallback_named {k : StationId} {g : Gate} {list : List (Gate × Nat)} (hm : g ∈ list.map Prod.fst)
    (nd : (list.map Prod.fst).Nodup) {s : State} {n : Nat} (h : (s.chan g).state.takes = true) :
    ((s.giveFallback k list n).1.requests g).2.1 = .fallback ∧ ((s.giveFallback k list n).1.chan g).silencePending = false := by
  induction list generalizing s n with
  | nil => cases hm
  | cons x xs ih =>
    obtain ⟨i, t⟩ := x
    obtain ⟨hi, nd⟩ := List.nodup_cons.mp nd
    rw [giveFallback_cons]
    by_cases hg : g = i
    · subst hg
      refine ⟨?_, giveFallback_unmarked xs (clampAndTake_unmarked (.inr ⟨rfl, h⟩) ..)⟩
      rw [giveFallback_others hi, clampAndTake_requests, if_pos ⟨rfl, h⟩]
    · exact ih ((List.mem_cons.mp hm).resolve_left hg) nd (clampAndTake_takes h ..)

/-- The first channel that the fallback names is clamped against the window as the event finds it. -/
theorem giveFallback_first {s : State} {k : StationId} {g : Gate} {target n : Nat} {rest : List (Gate × Nat)}
    (hn : g ∉ rest.map Prod.fst) (h : (s.chan g).state.takes = true) : (s.giveFallback k ((g, target) :: rest) n).1.requests g
      = (some (s.windowClamp k g target false).1, .fallback, (s.windowClamp k g target false).2) := by
  rw [giveFallback_cons, giveFallback_others hn, clampAndTake_requests, if_pos ⟨rfl, h⟩]

/-- What a channel's entry of the fallback list is, if it has one. -/
def State.fallbackOf (s : State) (g : Gate) : Option (Gate × Nat) :=
  if (s.chan g).fallsBack then (s.gateEntry g).fallback?.map fun t => (g, t) else none

theorem fallbackList_eq (s : State) (k : StationId) : s.fallbackList k = (s.active.gatesOf k).filterMap s.fallbackOf := rfl

theorem fallbackOf_eq_some {s : State} {g : Gate} {x : Gate × Nat} :
    s.fallbackOf g = some x ↔ (s.chan g).fallsBack = true ∧ x.1 = g ∧ (s.gateEntry g).fallback? = some x.2 := by
  obtain ⟨i, t⟩ := x
  unfold State.fallbackOf
  split
  · next h =>
    rw [Option.map_eq_some_iff]
    simp only [h, true_and, Prod.mk.injEq]
    exact ⟨fun ⟨a, ha, hi, ht⟩ => ⟨hi.symm, ht ▸ ha⟩, fun ⟨hi, ht⟩ => ⟨t, ht, hi.symm, rfl⟩⟩
  · next h => simp [h]

theorem fallbackOf_eq_none {s : State} {g : Gate} :
    s.fallbackOf g = none ↔ (s.chan g).fallsBack = false ∨ (s.gateEntry g).fallback? = none := by
  unfold State.fallbackOf
  split
  · next h => simp [h]
  · next h => simp [h]

theorem fallback_names (s : State) (gs : List Gate) :
    (gs.filterMap s.fallbackOf).map Prod.fst = gs.filter fun g => (s.fallbackOf g).isSome := by
  induction gs with
  | nil => rfl
  | cons g gs ih =>
    cases h : s.fallbackOf g with
    | none => rw [List.filterMap_cons_none h, ih, List.filter_cons_of_neg (by rw [h]; decide)]
    | some x =>
      rw [List.filterMap_cons_some h, List.map_cons, ih, List.filter_cons_of_pos (by rw [h]; rfl), (fallbackOf_eq_some.mp h).2.1]

theorem mem_fallback_names {s : State} {k : StationId} {g : Gate} : g ∈ (s.fallbackList k).map Prod.fst
    ↔ s.active.boundTo k g = true ∧ (s.chan g).fallsBack = true ∧ (s.gateEntry g).fallback? ≠ none := by
  rw [fallbackList_eq, fallback_names, List.mem_filter, mem_gatesOf, Option.isSome_iff_ne_none]
  refine and_congr_right fun _ => ?_
  rw [ne_eq, fallbackOf_eq_none]
  simp

theorem fallbackList_nodup (s : State) (k : StationId) : ((s.fallbackList k).map Prod.fst).Nodup := by
  rw [fallbackList_eq, fallback_names]
  exact (gatesOf_nodup _ _).filter _

/-- The gates of a station stand in ascending order. -/
theorem gatesOf_ascending (p : Plan) (k : StationId) : (p.gatesOf k).Pairwise fun g h => g.1 < h.1 := by
  refine List.Pairwise.filter _ ?_
  unfold allFin
  rw [List.pairwise_ofFn]
  exact fun i j h => h

/-- A channel that falls back, with none before it that does, heads the list. -/
theorem fallbackList_head {s : State} {k : StationId} {g : Gate} {target : Nat} (hb : s.active.boundTo k g = true)
    (hf : (s.chan g).fallsBack = true) (ht : (s.gateEntry g).fallback? = some target)
    (hfirst : ∀ h : Gate, h.1 < g.1 → s.active.boundTo k h = true →
      (s.chan h).fallsBack = false ∨ (s.gateEntry h).fallback? = none) : ∃ rest, s.fallbackList k = (g, target) :: rest := by
  obtain ⟨before, after, hsplit⟩ := List.append_of_mem (mem_gatesOf.mpr hb)
  have hasc := gatesOf_ascending s.active k
  rw [hsplit, List.pairwise_append] at hasc
  have hnone : before.filterMap s.fallbackOf = [] := List.filterMap_eq_nil_iff.mpr fun h hh => by
    refine fallbackOf_eq_none.mpr (hfirst h (hasc.2.2 h hh g (List.mem_cons_self ..)) (mem_gatesOf.mp ?_))
    rw [hsplit]
    exact List.mem_append_left _ hh
  refine ⟨after.filterMap s.fallbackOf, ?_⟩
  rw [fallbackList_eq, hsplit, List.filterMap_append, hnone,
    List.filterMap_cons_some (b := (g, target)) (fallbackOf_eq_some.mpr ⟨hf, rfl, ht⟩)]
  rfl

theorem fallsBack_takes {c : Channel} (h : c.fallsBack = true) : c.state.takes = true := by
  unfold Channel.fallsBack at h
  cases hst : c.state <;> rw [hst] at h <;> first | rfl | cases h

/-- The second expiry when it is due: the record at level 2, the fallback requests, and SILENCE_FALLBACK. -/
theorem secondSilence_due {s : State} {k : StationId} (h : s.silenceDue k .l1 = true) : ∃ d v, s.secondSilence k
    = ((s.setSilence k { level := .l2, timer := none }).giveFallback k (s.fallbackList k) 0).1.notify .silenceFallback
        (.station k.1) d v := by
  unfold State.secondSilence
  rw [if_pos h]
  exact ⟨_, _, rfl⟩

/-- Settles O32: the list of those that fall back, each asked once, in order. -/
theorem secondSilenceExpiryFallsBack : Obligations.SecondSilenceExpiryFallsBack := by
  intro s k hq
  refine ⟨fun hd => ?_, fun hd => event_eq hq (f := fun s => s.secondSilence k) (if_neg (by rw [hd]; decide)) hq.1.1⟩
  have hexec : exec (.secondSilenceExpiry k) s = .next (s.secondSilence k).finish := event_of_quiet hq _
  obtain ⟨d, v, he⟩ := secondSilence_due hd
  have hsame : SameBut [.chans, .gangs, .portF, .portD, .report] (s.setSilence k { level := .l2, timer := none })
      (s.secondSilence k).finish := by
    rw [he]
    exact (((sameBut_of_quiet fun q => q.giveFallback _ k _ 0)).trans ((notify_sameBut _ _ _ _ _).mono (by decide))).trans
      ((finish_sameBut _).mono (by decide))
  have hsilence : ∀ j, (s.secondSilence k).finish.silenceOf j
      = if j = k then { level := .l2, timer := none } else s.silenceOf j := fun j =>
    (congrArg (fun x => Tab.get x j) (hsame .silence (by decide))).trans (silenceOf_setSilence ..)
  have hchan : ∀ g, (s.secondSilence k).finish.chan g
      = (((s.setSilence k { level := .l2, timer := none }).giveFallback k (s.fallbackList k) 0).1).chan g := fun g => by
    refine (congrArg (fun x => Tab.get x g) (finish_chans _)).trans ?_
    rw [he]
    exact chan_notify ..
  refine ⟨_, hexec, (hsilence k).trans (if_pos rfl), fun j hj => (hsilence j).trans (if_neg hj), fun g hb hf hn => ?_,
    fun g target hb hf ht hfirst => ?_, fun g hn => ?_, ?_⟩
  · rw [hchan]
    exact giveFallback_named (mem_fallback_names.mpr ⟨hb, hf, hn⟩) (fallbackList_nodup s k)
      (s := s.setSilence k { level := .l2, timer := none }) (fallsBack_takes hf)
  · obtain ⟨rest, hlist⟩ := fallbackList_head hb hf ht hfirst
    have hnodup := fallbackList_nodup s k
    rw [hlist] at hnodup
    have hreq := giveFallback_first (s := s.setSilence k { level := .l2, timer := none }) (k := k) (target := target) (n := 0)
      (List.nodup_cons.mp hnodup).1 (fallsBack_takes hf)
    rw [windowClamp_congr (s := s) (t := s.setSilence k { level := .l2, timer := none }) rfl rfl rfl] at hreq
    simp only [State.requests, Prod.mk.injEq] at hreq
    obtain ⟨hgov, _, hclamp⟩ := hreq
    rw [hchan, hlist]
    exact ⟨hgov, hclamp⟩
  · have hout : g ∉ (s.fallbackList k).map Prod.fst := fun hm => by
      obtain ⟨hb, hf, hfb⟩ := mem_fallback_names.mp hm
      rcases hn with h | h | h
      · rw [hb] at h; cases h
      · rw [hf] at h; cases h
      · exact hfb h
    have hreq := giveFallback_others (k := k) hout (s.setSilence k { level := .l2, timer := none }) 0
    simp only [State.requests, Prod.mk.injEq] at hreq
    rw [hchan]
    exact hreq
  · exact ((setSilence_sameBut _ _ _).mono (by decide)).trans (hsame.mono (by decide))

/-! ### The schedule -/

theorem forEach_id {α : Type} {f : α → State → State} {xs : List α} {s : State} (h : ∀ a ∈ xs, f a s = s) : forEach xs f s = s := by
  induction xs with
  | nil => rfl
  | cons x xs ih =>
    show forEach xs f (f x s) = s
    rw [h x (List.mem_cons_self ..)]
    exact ih fun a ha => h a (List.mem_cons_of_mem _ ha)

theorem forEach_append {α : Type} (f : α → State → State) (xs ys : List α) (s : State) :
    forEach (xs ++ ys) f s = forEach ys f (forEach xs f s) := List.foldl_append ..

/-- Where one name alone acts, folding is its action. -/
theorem forEach_single {α : Type} {f : α → State → State} {xs : List α} {x : α} (hx : x ∈ xs) (nd : xs.Nodup) {s : State}
    (hb : ∀ a, a ≠ x → f a s = s) (ha : ∀ a, a ≠ x → f a (f x s) = f x s) : forEach xs f s = f x s := by
  obtain ⟨before, after, hsplit⟩ := List.append_of_mem hx
  rw [hsplit, List.nodup_append] at nd
  have hbefore : ∀ a ∈ before, a ≠ x := fun a h => nd.2.2 a h x (List.mem_cons_self ..)
  have hafter : ∀ a ∈ after, a ≠ x := fun a h he => (List.nodup_cons.mp nd.2.1).1 (he ▸ h)
  rw [hsplit, forEach_append, forEach_id fun a h => hb a (hbefore a h)]
  exact forEach_id (s := f x s) fun a h => ha a (hafter a h)

/-- The entry fires: armed, and its plan entry matches the counters. -/
def State.fires (s : State) (n : Fin 32) : Bool := s.armed.get n && scheduleMatches (s.active.sched.get n) s.clock

/-- The entry disarmed and its notice sent, before its request. -/
def State.firing (s : State) (n : Fin 32) : State :=
  (s.disarm n (s.active.sched.get n)).notify .scheduleFired (.gate (s.active.sched.get n).gate)
    (packDetail n.1 ((s.active.sched.get n).mode * 16 + (s.active.sched.get n).once.toNat)) (s.active.sched.get n).opening

theorem fire_eq (s : State) (n : Fin 32) : s.fire n = if s.fires n then
    (s.firing n).takeSchedule n.1 (s.active.sched.get n).gate (s.active.sched.get n).opening else s := rfl

theorem disarm_sameBut (s : State) (n : Fin 32) (e : SchedEntry) : SameBut [.armed] s (s.disarm n e) := by
  unfold State.disarm
  split
  · intro x hx
    cases x <;> first | exact ⟨rfl, rfl⟩ | rfl | simp at hx
  · exact SameBut.refl _ _

theorem disarm_armed (s : State) (n : Fin 32) (e : SchedEntry) (m : Fin 32) :
    (s.disarm n e).armed.get m = if m = n then s.armed.get n && !e.once else s.armed.get m := by
  unfold State.disarm
  cases e.once with
  | true =>
    rw [if_pos rfl]
    refine (Tab.get_set ..).trans ?_
    rw [Bool.not_true, Bool.and_false]
  | false =>
    rw [if_neg (by decide), Bool.not_false, Bool.and_true]
    split
    · next h => rw [h]
    · rfl

theorem firing_sameBut (s : State) (n : Fin 32) : SameBut [.armed, .portD, .report] s (s.firing n) :=
  ((disarm_sameBut _ _ _).mono (by decide)).trans ((notify_sameBut _ _ _ _ _).mono (by decide))

theorem fire_sameBut (s : State) (n : Fin 32) : SameBut [.armed, .chans, .gangs, .portF, .portD, .report] s (s.fire n) := by
  rw [fire_eq]
  split
  · exact ((firing_sameBut s n).mono (by decide)).trans ((sameBut_of_quiet fun q => q.takeSchedule _ _ _ _).mono (by decide))
  · exact SameBut.refl _ _

theorem fire_armed (s : State) (n m : Fin 32) : (s.fire n).armed.get m = if m = n then
    s.armed.get n && !(scheduleMatches (s.active.sched.get n) s.clock && (s.active.sched.get n).once) else s.armed.get m := by
  rw [fire_eq]
  unfold State.fires
  by_cases h : (s.armed.get n && scheduleMatches (s.active.sched.get n) s.clock) = true
  · rw [if_pos h]
    have hkeep : ((s.firing n).takeSchedule n.1 (s.active.sched.get n).gate (s.active.sched.get n).opening).armed
        = (s.disarm n (s.active.sched.get n)).armed := (quiet_armed.takeSchedule ..).trans (quiet_armed.notify ..)
    rw [hkeep, disarm_armed, (Bool.and_eq_true_iff.mp h).2, Bool.true_and]
  · rw [if_neg h]
    split
    · next he =>
      subst he
      cases hm : s.armed.get m with
      | false => rfl
      | true =>
        rw [hm, Bool.true_and, Bool.not_eq_true] at h
        rw [h]
        rfl
    · rfl

/-- Every entry that matches is judged once, as the minute finds it. -/
theorem scheduleEvent_armed (s : State) (n : Fin 32) : s.scheduleEvent.armed.get n
    = (s.armed.get n && !(scheduleMatches (s.active.sched.get n) s.clock && (s.active.sched.get n).once)) := by
  exact (forEach_at (fun u m => u.armed.get m) (fun n s => s.fire n) (fun u => u.active = s.active ∧ u.clock = s.clock)
    (fun m b => b && !(scheduleMatches (s.active.sched.get m) s.clock && (s.active.sched.get m).once))
    (fun m u h => ⟨(active_of_sameBut (by decide) (fire_sameBut u m)).trans h.1, (fire_sameBut u m .clock (by decide)).1.trans h.2⟩)
    (fun m u h => by rw [fire_armed, if_pos rfl, h.1, h.2]) (fun m b u _ hne => by rw [fire_armed, if_neg hne])
    (allFin_nodup 32) (s := s) ⟨rfl, rfl⟩).1 n (mem_allFin n)

theorem fire_idle {s : State} {n : Fin 32} (h : s.fires n = false) : s.fire n = s := by
  rw [fire_eq, h, if_neg (by decide)]

/-- A firing leaves what the other entries do. -/
theorem fires_fire_ne (s : State) {n m : Fin 32} (hne : m ≠ n) : (s.fire n).fires m = s.fires m := by
  unfold State.fires
  rw [fire_armed, if_neg hne, active_of_sameBut (by decide) (fire_sameBut s n), (fire_sameBut s n .clock (by decide)).1]

/-- Where one entry alone fires, the schedule event is its firing. -/
theorem scheduleEvent_single {s : State} {n : Fin 32} (h : ∀ m, m ≠ n → s.fires m = false) : s.scheduleEvent = s.fire n :=
  forEach_single (mem_allFin n) (allFin_nodup 32) (fun m hm => fire_idle (h m hm))
    fun m hm => fire_idle ((fires_fire_ne s hm).trans (h m hm))

theorem scheduleEvent_idle {s : State} (h : ∀ n, s.fires n = false) : s.scheduleEvent = s := forEach_id fun n _ => fire_idle (h n)

theorem takeSchedule_gate (s : State) (n : Nat) (g : Gate) (o : Nat) : (s.takeSchedule n g.1 o).chans = s.chans
    ∨ ∃ k, s.scheduleDiscard g = none ∧ (s.gateEntry g).station? = some k ∧ s.takeSchedule n g.1 o = s.clampAndTake k g o .schedule := by
  unfold State.takeSchedule
  rw [toFin?_val]
  simp only
  split
  · exact .inl (notify_chans ..)
  · next k hd hk => exact .inr ⟨k, hd, hk, rfl⟩
  · exact .inl rfl

theorem scheduleDiscard_none {s : State} {g : Gate} : s.scheduleDiscard g = none
    ↔ s.active.bound g = true ∧ s.silenceLevelOf g = .l0 ∧ (s.chan g).state.takes = true := by
  unfold State.scheduleDiscard
  cases s.active.bound g <;> cases (s.chan g).state.takes <;> by_cases h : s.silenceLevelOf g = .l0 <;> simp [h]

theorem takeSchedule_taken {s : State} {g : Gate} {k : StationId} (hd : s.scheduleDiscard g = none)
    (hk : (s.gateEntry g).station? = some k) (n o : Nat) : s.takeSchedule n g.1 o = s.clampAndTake k g o .schedule := by
  unfold State.takeSchedule
  rw [toFin?_val]
  simp only
  rw [hd, hk]

theorem silenceLevelOf_congr {s t : State} (ha : t.active = s.active) (hl : t.silence = s.silence) (g : Gate) :
    t.silenceLevelOf g = s.silenceLevelOf g := by
  unfold State.silenceLevelOf State.gateEntry State.silenceOf
  rw [ha, hl]

/-- Settles O41: entry by entry, and the request of one that fires alone. -/
theorem scheduleFiresMatchingEntries : Obligations.ScheduleFiresMatchingEntries := by
  intro s hq hd
  have hbegun := begun_of_not_due hq.1.2.1 hq.1.2.2
  have hsched : s.minuteSchedule = ({ s with minuteDue := { s.minuteDue with schedule := false } } : State).scheduleEvent := if_pos hd
  have hexec : exec (.modelMinute .schedule) s = .next s.minuteSchedule.finish := by
    show done (s.begun.takeAll [.schedule]) = _
    rw [hbegun, takeAll_one (e := .schedule) hq hd]
    show Host.Outcome.next s.minuteSchedule.finish.finish = _
    rw [show s.minuteSchedule.finish.finish = s.minuteSchedule.finish from settled_finish _]
  rw [hsched] at hexec
  have hdue := minuteDue_sameBut s { s.minuteDue with schedule := false }
  have hfresh : ({ s with minuteDue := { s.minuteDue with schedule := false } } : State).minuteDue
      = { s.minuteDue with schedule := false } := rfl
  have harmed : ∀ n, ({ s with minuteDue := { s.minuteDue with schedule := false } } : State).armed.get n = s.armed.get n :=
    fun _ => rfl
  have hfires : ∀ n, ({ s with minuteDue := { s.minuteDue with schedule := false } } : State).fires n = s.fires n := fun _ => rfl
  have hlocal : ∀ n, s.fires n = (s.armed.get n && scheduleMatches (s.active.sched.get n) s.clock) := fun _ => rfl
  generalize ({ s with minuteDue := { s.minuteDue with schedule := false } } : State) = u at *
  have hactive : u.active = s.active := active_of_sameBut (by decide) hdue
  have hclock : u.clock = s.clock := (hdue .clock (by decide)).1
  have hall : SameBut [.armed, .chans, .gangs, .portF, .portD, .report] u u.scheduleEvent.finish :=
    (forEach_sameBut (fun n u => fire_sameBut u n) _ _).trans ((finish_sameBut _).mono (by decide))
  have hnone : ∀ n, (s.armed.get n = true → scheduleMatches (s.active.sched.get n) s.clock = false) → u.fires n = false := fun n h => by
    rw [hfires, hlocal]
    cases hn : s.armed.get n with
    | false => rfl
    | true => rw [h hn]; rfl
  have harm : u.scheduleEvent.finish.armed = u.scheduleEvent.armed := quiet_armed.finish _
  refine ⟨_, hexec, (hall .minuteDue (by decide)).trans hfresh, fun n => ?_, fun h => ?_, fun n g hn hm hothers hg => ?_, ?_⟩
  · rw [harm, scheduleEvent_armed, harmed, hactive, hclock]
  · rw [scheduleEvent_idle fun n => hnone n (h n)]
    exact ⟨(finish_chans _).trans (hdue .chans (by decide)), (finish_portD _).trans (hdue .portD (by decide))⟩
  · have hfire : u.fires n = true := by
      rw [hfires, hlocal, hn, hm]
      rfl
    have hevent : u.scheduleEvent = (u.firing n).takeSchedule n.1 g.1 (s.active.sched.get n).opening := by
      rw [scheduleEvent_single fun m hne => hnone m (hothers m hne), fire_eq, if_pos hfire, hactive, hg]
    rw [hevent]
    have hfiring := firing_sameBut u n
    have hact : (u.firing n).active = s.active := (active_of_sameBut (by decide) hfiring).trans hactive
    have hchans : (u.firing n).chans = s.chans := (hfiring .chans (by decide)).trans (hdue .chans (by decide))
    have hstations : (u.firing n).stations = s.stations := (hfiring .stations (by decide)).trans (hdue .stations (by decide))
    have hlevel : (u.firing n).silenceLevelOf g = s.silenceLevelOf g :=
      silenceLevelOf_congr hact ((hfiring .silence (by decide)).trans (hdue .silence (by decide))) g
    have hchan : ∀ h, (u.firing n).chan h = s.chan h := fun h => congrArg (fun x => Tab.get x h) hchans
    have hfin : ∀ v : State, v.finish.chans = v.chans := finish_chans
    refine ⟨?_, fun hdis => ?_, fun k hk hl ht => ?_⟩
    · have hdis := (disarm_sameBut u n (u.active.sched.get n)).trans (SameBut.refl [.armed] _)
      have hline : (u.disarm n (u.active.sched.get n)).portD = s.portD := (hdis .portD (by decide)).trans (hdue .portD (by decide))
      have hreport : (u.disarm n (u.active.sched.get n)).report = s.report :=
        (hdis .report (by decide)).trans (hdue .report (by decide))
      have hwhen : (u.disarm n (u.active.sched.get n)).clock = s.clock := (hdis .clock (by decide)).1.trans hclock
      refine noticed_of_prefix (w := u.disarm n (u.active.sched.get n)) (by rw [hline]) (by rw [hline]) (by rw [hreport]) hwhen
        fun l hl => (keeps_own l).finish ((keeps_own l).takeSchedule _ _ _ ?_)
      unfold State.firing
      rw [hactive] at hl ⊢
      rw [hg]
      exact hl
    · rw [hfin]
      rcases takeSchedule_gate (u.firing n) n.1 g (s.active.sched.get n).opening with h | ⟨k, hnd, _, _⟩
      · exact h.trans hchans
      · rw [scheduleDiscard_none, hact, hlevel, hchan] at hnd
        rcases hdis with h | h | h
        · rw [hnd.1] at h; cases h
        · exact absurd hnd.2.1 h
        · rw [hnd.2.2] at h; cases h
    · have hst : ((u.firing n).gateEntry g).station? = some k := by
        unfold State.gateEntry
        rw [hact]
        exact of_decide_eq_true (Bool.and_eq_true_iff.mp hk).2
      have hnd : (u.firing n).scheduleDiscard g = none := scheduleDiscard_none.mpr ⟨by rw [hact]; exact bound_of_boundTo hk,
        by rw [hlevel]; exact hl, by rw [hchan]; exact ht⟩
      rw [takeSchedule_taken hnd hst]
      have hreq := fun h => clampAndTake_requests (u.firing n) k g (s.active.sched.get n).opening .schedule h
      have hclamp := windowClamp_congr hchans hstations hact k g (s.active.sched.get n).opening false
      have hfinchan : ∀ (v : State) h, v.finish.chan h = v.chan h := fun v h => congrArg (fun x => Tab.get x h) (hfin v)
      have hself := hreq g
      rw [if_pos ⟨rfl, by rw [hchan]; exact ht⟩, hclamp] at hself
      simp only [State.requests, Prod.mk.injEq] at hself
      obtain ⟨hgov, hsrc, hmark⟩ := hself
      rw [hfinchan]
      refine ⟨hsrc, hgov, hmark, fun h hne => ?_⟩
      have hother := hreq h
      rw [if_neg fun he => hne he.1] at hother
      simp only [State.requests, Prod.mk.injEq] at hother
      rw [hfinchan, hother.1, hother.2.1, hchan]
      exact ⟨rfl, rfl⟩
  · exact (hdue.mono (by decide)).trans (hall.mono (by decide))

end Sys2Proof.Machine
end

section
/-! The balance of a minute (R47, R49 to R53, R65 to R70): each reach delivers to the station below it, and each record is written
once, from what it held before the minute. -/

namespace Sys2Proof.Machine

/-! ### The beginnings of frames -/

theorem lined_straps : Lined State.straps := ⟨quiet_straps, fun _ _ => rfl, fun _ _ => rfl, fun _ => rfl⟩
theorem lined_fieldReady : Lined State.fieldReady := ⟨quiet_fieldReady, fun _ _ => rfl, fun _ _ => rfl, fun _ => rfl⟩
theorem lined_node : Lined State.node := ⟨quiet_node, fun _ _ => rfl, fun _ _ => rfl, fun _ => rfl⟩
theorem lined_rejects : Lined State.rejects := ⟨quiet_rejects, fun _ _ => rfl, fun _ _ => rfl, fun _ => rfl⟩
theorem lined_prescaler : Lined State.prescaler := ⟨quiet_prescaler, fun _ _ => rfl, fun _ _ => rfl, fun _ => rfl⟩
theorem lined_armed : Lined State.armed := ⟨quiet_armed, fun _ _ => rfl, fun _ _ => rfl, fun _ => rfl⟩

/-- The transmissions that begin change the ports, the free counter, the report and what the channels behind port F hold. -/
theorem onLines_sameBut (s : State) : SameBut [.chans, .gangs, .portF, .portD, .report, .freeCount] s s.onLines := by
  intro p hp
  cases p with
  | queue => exact lined_pending.onLines s
  | pins => exact ⟨lined_straps.onLines s, lined_fieldReady.onLines s⟩
  | node => exact lined_node.onLines s
  | inbox => exact lined_inbox.onLines s
  | stations => exact lined_stations.onLines s
  | silence => exact lined_silence.onLines s
  | reaches => exact lined_reaches.onLines s
  | rejects => exact lined_rejects.onLines s
  | clock => exact ⟨lined_clock.onLines s, lined_prescaler.onLines s⟩
  | minuteDue => exact lined_minuteDue.onLines s
  | armed => exact lined_armed.onLines s
  | store => exact lined_store.onLines s
  | told => exact lined_told.onLines s
  | _ => simp at hp

theorem setReach_sameBut (s : State) (k : ReachId) (r : Reach) : SameBut [.reaches] s (s.setReach k r) := by
  intro x hx
  cases x <;> first | exact ⟨rfl, rfl⟩ | rfl | simp at hx

theorem station_of_sameBut {ps : List Part} {s t : State} (hp : Part.stations ∉ ps) (h : SameBut ps s t) (k : StationId) :
    t.station k = s.station k := congrArg (fun x => Tab.get x k) (h .stations hp)

theorem reach_of_sameBut {ps : List Part} {s t : State} (hp : Part.reaches ∉ ps) (h : SameBut ps s t) (k : ReachId) :
    t.reach k = s.reach k := congrArg (fun x => Tab.get x k) (h .reaches hp)

theorem reachEntry_of_sameBut {ps : List Part} {s t : State} (hp : Part.store ∉ ps) (h : SameBut ps s t) (k : ReachId) :
    t.reachEntry k = s.reachEntry k := congrArg (fun x : PlanStore => x.active.reaches.get k) (h .store hp)

/-! ### One station's balance -/

/-- A station's record with the arrival, and with its window when the stage keeps one of its own (R53). -/
def Station.arrived (r : Station) (e : StationEntry) (arrival : Nat) : Station :=
  if r.stage = .surcharge then { r with arrival := arrival }.withWindow e else { r with arrival := arrival }

/-- A station's record with the storage, the prediction and the stage of its balance (R49 to R52), before its window. -/
def Station.staged (r : Station) (e : StationEntry) (arrival ahead : Nat) : Station :=
  let pred := predicted (r.balanced arrival) e.horizon r.qLocal r.qOut ahead
  { r with arrival := arrival, storage := r.balanced arrival, sPred := some pred, stage := e.nextStage r.stage pred r.hw.level }

/-- A station's record after its balance, with the storage estimate valid. -/
def Station.levelled (r : Station) (e : StationEntry) (arrival ahead : Nat) : Station :=
  if (r.staged e arrival ahead).stage ≠ r.stage ∨ (r.staged e arrival ahead).stage = .surcharge then
    (r.staged e arrival ahead).withWindow e
  else r.staged e arrival ahead

/-- A station's record after its balance event (R47, R49 to R53). -/
def Station.afterBalance (r : Station) (e : StationEntry) (arrival ahead : Nat) : Station :=
  if e.isPresent then if r.storageValid then r.levelled e arrival ahead else r.arrived e arrival else r

theorem balanceEvent_present {s : State} {k : StationId} (hp : (s.stationEntry k).isPresent = true)
    (hv : (s.station k).storageValid = true) (a x : Nat) :
    s.balanceEvent k a x =
      (if ((s.station k).staged (s.stationEntry k) a x).stage ≠ (s.station k).stage then
        (s.setStation k ((s.station k).levelled (s.stationEntry k) a x)).notify .stageChange (.station k.1)
          (packNibbles (s.station k).stage.code ((s.station k).staged (s.stationEntry k) a x).stage.code 0 0)
          (predicted ((s.station k).balanced a) (s.stationEntry k).horizon (s.station k).qLocal (s.station k).qOut x)
      else s.setStation k ((s.station k).levelled (s.stationEntry k) a x)).surchargeReviews k (s.station k).stage := by
  unfold State.balanceEvent
  simp only
  rw [if_pos hp, if_pos hv]
  rfl

theorem balanceEvent_unmeasured {s : State} {k : StationId} (hp : (s.stationEntry k).isPresent = true)
    (hv : (s.station k).storageValid = false) (a x : Nat) :
    s.balanceEvent k a x = s.setStation k ((s.station k).arrived (s.stationEntry k) a) := by
  unfold State.balanceEvent
  simp only
  rw [if_pos hp, if_neg (Bool.eq_false_iff.mp hv)]
  rfl

theorem balanceEvent_absent {s : State} {k : StationId} (hp : (s.stationEntry k).isPresent = false) (a x : Nat) :
    s.balanceEvent k a x = s := by
  unfold State.balanceEvent
  exact if_neg (Bool.eq_false_iff.mp hp)

/-- A balance event writes its station, and its notice and reviews the gangs, the ports and the report. -/
theorem balanceEvent_sameBut (s : State) (k : StationId) (a x : Nat) :
    SameBut [.chans, .gangs, .portF, .portD, .report]
      (s.setStation k ((s.station k).afterBalance (s.stationEntry k) a x)) (s.balanceEvent k a x) := by
  unfold Station.afterBalance
  split
  · next hp =>
    split
    · next hv =>
      rw [balanceEvent_present hp hv]
      refine SameBut.trans ?_ (surchargeReviews_sameBut _ _ _)
      split
      · exact (notify_sameBut _ _ _ _ _).mono (by decide)
      · exact SameBut.refl _ _
    · next hv =>
      rw [balanceEvent_unmeasured hp (Bool.eq_false_iff.mpr hv)]
      exact SameBut.refl _ _
  · next hp =>
    rw [balanceEvent_absent (Bool.eq_false_iff.mpr hp), setStation_station_self]
    exact SameBut.refl _ _

/-! ### One reach's minute -/

/-- A reach after its minute event (R65, R70): advanced by the outflow above it, seeded by it, or as it was. -/
def Reach.afterMinute (r : Reach) (e : ReachEntry) (up : Station) : Reach :=
  if r.unseeded then
    if up.positioned then { r with line := oneParcel up.qOut e.tau, unseeded := false } else r
  else
    { r with
      line := (appendMinute (dropFront r.line) up.qOut).1
      coarse := if (appendMinute (dropFront r.line) up.qOut).2 then countUp r.coarse else r.coarse }

/-- The reach after the minute, from its record and the outflow of the station above. -/
def State.delivered (s : State) (r : ReachId) : Reach :=
  if (s.reachEntry r).isPresent then (s.reach r).afterMinute (s.reachEntry r) (s.station (upperOf r)) else s.reach r

theorem advanceLine_sameBut (s : State) (k : ReachId) (q : Nat) : SameBut [.reaches, .portD, .report] s (s.advanceLine k q) := by
  unfold State.advanceLine
  simp only
  split
  · exact (setReach_sameBut _ _ _).mono (by decide)
  · exact ((setReach_sameBut _ _ _).mono (by decide)).trans ((notify_sameBut _ _ _ _ _).mono (by decide))

theorem reachMinute_sameBut (s : State) (k : ReachId) : SameBut [.reaches, .portD, .report] s (s.reachMinute k) := by
  unfold State.reachMinute
  simp only
  split
  · split
    · exact reseed_sameBut _ _ _ _
    · exact SameBut.refl _ _
  · exact advanceLine_sameBut _ _ _

theorem reachMinute_reach (s : State) (k j : ReachId) : (s.reachMinute k).reach j
    = if j = k then (s.reach k).afterMinute (s.reachEntry k) (s.station (upperOf k)) else s.reach j := by
  unfold State.reachMinute Reach.afterMinute
  simp only
  split
  · split
    · exact reseed_reach ..
    · split
      · next e => rw [e]
      · rfl
  · exact advanceLine_reach ..

/-! ### A station in its place of the cascade -/

/-- The arrival and the look-ahead sum a reach hands to the station below it. -/
def State.handed (s : State) (r : ReachId) : Nat × Nat :=
  (nextArrival (s.reach r).line,
    aheadFor (s.delivered r).line (s.stationEntry (lowerOf r)).horizon (s.reachEntry r).tau (s.station (upperOf r)).qOut)

/-- What a station's balance event is given: nothing at station 0, what the reach into any other hands it, if that is present. -/
def State.inflow (s : State) (k : StationId) : Option (Nat × Nat) :=
  match reachInto k with
  | none => some (0, 0)
  | some r => if (s.reachEntry r).isPresent then some (s.handed r) else none

/-- A station's record after its place of the minute's cascade. -/
def State.balancedAt (s : State) (k : StationId) : Station :=
  match s.inflow k with
  | none => s.station k
  | some (arrival, ahead) => (s.station k).afterBalance (s.stationEntry k) arrival ahead

theorem reachInto_lowerOf (r : ReachId) : reachInto (lowerOf r) = some r := by
  revert r
  decide

theorem lowerOf_of_reachInto {k : StationId} {r : ReachId} (h : reachInto k = some r) : lowerOf r = k := by
  revert k r
  decide

theorem reachInto_none {k : StationId} (h : reachInto k = none) (r : ReachId) : lowerOf r ≠ k := by
  revert k r
  decide

theorem upperOf_ne_lowerOf (r : ReachId) : upperOf r ≠ lowerOf r := by
  revert r
  decide

theorem lowerOf_injective {r q : ReachId} (h : lowerOf r = lowerOf q) : r = q := by
  revert r q
  decide

theorem inflow_lowerOf {s : State} {r : ReachId} (h : (s.reachEntry r).isPresent = true) : s.inflow (lowerOf r) = some (s.handed r) := by
  unfold State.inflow
  rw [reachInto_lowerOf]
  exact if_pos h

/-- A minute of the cascade from `s` to `t`: the records of the stations `ks`, and of the reaches into them, after it. -/
structure Swept (ks : List StationId) (s t : State) : Prop where
  station : ∀ k, t.station k = if k ∈ ks then s.balancedAt k else s.station k
  reach : ∀ r, t.reach r = if lowerOf r ∈ ks then s.delivered r else s.reach r
  rest : SameBut [.stations, .reaches, .chans, .gangs, .portF, .portD, .report, .minuteDue, .freeCount] s t

theorem Swept.refl (s : State) : Swept [] s s :=
  ⟨fun _ => (if_neg List.not_mem_nil).symm, fun _ => (if_neg List.not_mem_nil).symm, SameBut.refl _ _⟩

/-- A balance keeps what the reach below its station and the station's own next balance read. -/
theorem afterBalance_keeps (r : Station) (e : StationEntry) (a x : Nat) :
    (r.afterBalance e a x).qOut = r.qOut ∧ (r.afterBalance e a x).positioned = r.positioned := by
  unfold Station.afterBalance Station.levelled Station.arrived
  split
  · split <;> split <;> exact ⟨rfl, rfl⟩
  · exact ⟨rfl, rfl⟩

theorem balancedAt_keeps (s : State) (k : StationId) :
    (s.balancedAt k).qOut = (s.station k).qOut ∧ (s.balancedAt k).positioned = (s.station k).positioned := by
  unfold State.balancedAt
  split
  · exact ⟨rfl, rfl⟩
  · exact afterBalance_keeps ..

theorem Swept.outflow {ks : List StationId} {s t : State} (h : Swept ks s t) (k : StationId) :
    (t.station k).qOut = (s.station k).qOut ∧ (t.station k).positioned = (s.station k).positioned := by
  rw [h.station]
  split
  · exact balancedAt_keeps ..
  · exact ⟨rfl, rfl⟩

theorem afterMinute_congr {up up' : Station} (hq : up'.qOut = up.qOut) (hp : up'.positioned = up.positioned) (r : Reach)
    (e : ReachEntry) : r.afterMinute e up' = r.afterMinute e up := by
  unfold Reach.afterMinute
  rw [hq, hp]

/-- What is still to be swept reads the same records. -/
theorem Swept.delivered {ks : List StationId} {s t : State} (h : Swept ks s t) {r : ReachId} (hr : lowerOf r ∉ ks) :
    t.delivered r = s.delivered r := by
  obtain ⟨hq, hp⟩ := h.outflow (upperOf r)
  unfold State.delivered
  rw [reachEntry_of_sameBut (s := s) (by decide) h.rest, h.reach, if_neg hr, afterMinute_congr hq hp]

theorem Swept.balancedAt {ks : List StationId} {s t : State} (h : Swept ks s t) {k : StationId} (hk : k ∉ ks) :
    t.balancedAt k = s.balancedAt k := by
  have hstation : t.station k = s.station k := (h.station k).trans (if_neg hk)
  have hentry : ∀ j, t.stationEntry j = s.stationEntry j := fun j => stationEntry_of_sameBut (s := s) (by decide) h.rest
  have hin : t.inflow k = s.inflow k := by
    unfold State.inflow
    split
    · rfl
    · next r hr =>
      have hlow : lowerOf r ∉ ks := by rw [lowerOf_of_reachInto hr]; exact hk
      unfold State.handed
      rw [reachEntry_of_sameBut (s := s) (by decide) h.rest, h.reach, if_neg hlow, h.delivered hlow, (h.outflow _).1, hentry]
  unfold State.balancedAt
  rw [hin, hstation, hentry]

theorem Swept.cons {k : StationId} {ks : List StationId} {s t u : State} (hk : k ∉ ks) (h : Swept [k] s t) (h' : Swept ks t u) :
    Swept (k :: ks) s u := by
  refine ⟨fun j => ?_, fun r => ?_, h.rest.trans h'.rest⟩
  · rw [h'.station]
    by_cases hj : j ∈ ks
    · rw [if_pos hj, if_pos (List.mem_cons_of_mem _ hj)]
      exact h.balancedAt fun hm => hk (List.mem_singleton.mp hm ▸ hj)
    · rw [if_neg hj, h.station]
      simp only [List.mem_cons, List.not_mem_nil, hj, or_false]
  · rw [h'.reach]
    by_cases hr : lowerOf r ∈ ks
    · rw [if_pos hr, if_pos (List.mem_cons_of_mem _ hr)]
      exact h.delivered fun hm => hk (List.mem_singleton.mp hm ▸ hr)
    · rw [if_neg hr, h.reach]
      simp only [List.mem_cons, List.not_mem_nil, hr, or_false]

/-- Between states that agree in what a minute reads and writes. -/
theorem Swept.congr {ks : List StationId} {s s' t t' : State}
    (hs : SameBut [.chans, .gangs, .portF, .portD, .report, .freeCount, .minuteDue] s s')
    (ht : SameBut [.chans, .gangs, .portF, .portD, .report, .freeCount, .minuteDue] t t') (h : Swept ks s' t) : Swept ks s t' := by
  have h0 : Swept [] s s' :=
    ⟨fun k => (station_of_sameBut (by decide) hs k).trans (if_neg List.not_mem_nil).symm,
      fun r => (reach_of_sameBut (by decide) hs r).trans (if_neg List.not_mem_nil).symm, hs.mono (by decide)⟩
  refine ⟨fun k => ?_, fun r => ?_, (hs.mono (by decide)).trans (h.rest.trans (ht.mono (by decide)))⟩
  · rw [station_of_sameBut (by decide) ht, h.station, h0.balancedAt List.not_mem_nil, station_of_sameBut (by decide) hs]
  · rw [reach_of_sameBut (by decide) ht, h.reach, h0.delivered List.not_mem_nil, reach_of_sameBut (by decide) hs]

theorem deliver_absent {s : State} {r : ReachId} (h : (s.reachEntry r).isPresent = false) : s.deliver r = s := by
  unfold State.deliver
  rw [if_neg (by rw [h]; decide)]

/-- A station that its balance event finds with what the cascade hands it. -/
theorem Swept.of_balance {k : StationId} {s t : State} {a x : Nat} (hin : s.inflow k = some (a, x))
    (hreach : ∀ r, t.reach r = if lowerOf r = k then s.delivered r else s.reach r)
    (hst : SameBut [.reaches, .portD, .report] s t) : Swept [k] s (t.balanceEvent k a x) := by
  have hbal := balanceEvent_sameBut t k a x
  have hall := (setStation_sameBut t k ((t.station k).afterBalance (t.stationEntry k) a x)).mono
    (qs := [.stations, .reaches, .chans, .gangs, .portF, .portD, .report, .minuteDue, .freeCount]) (by decide)
  refine ⟨fun j => ?_, fun r => ?_, (hst.mono (by decide)).trans (hall.trans (hbal.mono (by decide)))⟩
  · rw [station_of_sameBut (s := t.setStation _ _) (by decide) hbal, station_setStation, station_of_sameBut (s := s) (by decide) hst,
      station_of_sameBut (s := s) (by decide) hst, stationEntry_of_sameBut (s := s) (by decide) hst]
    simp only [List.mem_singleton]
    split
    · next e =>
      subst e
      unfold State.balancedAt
      rw [hin]
    · rfl
  · rw [reach_of_sameBut (s := t.setStation _ _) (by decide) hbal, reach_setStation, hreach]
    simp only [List.mem_singleton]

/-- A station in its place of the cascade (R47, R65). -/
theorem stationMinute_swept (s : State) (k : StationId) : Swept [k] s (s.stationMinute k) := by
  unfold State.stationMinute
  split
  · next h =>
    refine Swept.of_balance (by unfold State.inflow; rw [h]) (fun r => ?_) (SameBut.refl _ _)
    rw [if_neg (reachInto_none h r)]
  · next q hq =>
    have hk := lowerOf_of_reachInto hq
    subst hk
    cases hp : (s.reachEntry q).isPresent with
    | false =>
      have hsame : s.inflow (lowerOf q) = none := by
        unfold State.inflow
        rw [hq]
        exact if_neg (by rw [hp]; decide)
      rw [deliver_absent hp]
      refine ⟨fun j => ?_, fun r => ?_, SameBut.refl _ _⟩
      · split
        · next hj =>
          rw [List.mem_singleton.mp hj]
          unfold State.balancedAt
          rw [hsame]
        · rfl
      · split
        · next hr =>
          rw [lowerOf_injective (List.mem_singleton.mp hr)]
          unfold State.delivered
          rw [if_neg (by rw [hp]; decide)]
        · rfl
    | true =>
      have hmin := reachMinute_sameBut s q
      have hdel : s.delivered q = (s.reach q).afterMinute (s.reachEntry q) (s.station (upperOf q)) := if_pos hp
      have hq' : (s.reachMinute q).reach q = s.delivered q := by rw [reachMinute_reach, if_pos rfl, hdel]
      have heq : s.deliver q = (s.reachMinute q).balanceEvent (lowerOf q) (s.handed q).1 (s.handed q).2 := by
        unfold State.deliver
        rw [if_pos hp]
        simp only
        rw [hq', station_of_sameBut (s := s) (by decide) hmin, stationEntry_of_sameBut (s := s) (by decide) hmin,
          reachEntry_of_sameBut (s := s) (by decide) hmin]
        rfl
      rw [heq]
      refine Swept.of_balance (inflow_lowerOf hp) (fun r => ?_) hmin
      rw [reachMinute_reach]
      by_cases e : r = q
      · rw [if_pos e, e, if_pos rfl, hdel]
      · rw [if_neg e, if_neg fun he => e (lowerOf_injective he)]

/-! ### The balance part of the minute -/

/-- The balances of these stations are still owed. -/
def State.owing (s : State) (ks : List StationId) : State := { s with minuteDue := { s.minuteDue with balance := ks } }

theorem minuteBalance_cons {s : State} {k : StationId} {ks : List StationId} (h : s.minuteDue.balance = k :: ks) :
    s.minuteBalance = (s.owing ks).stationMinute k := by
  unfold State.minuteBalance
  rw [h]
  rfl

theorem stationMinute_minuteDue (s : State) (k : StationId) : (s.stationMinute k).minuteDue = s.minuteDue := by
  unfold State.stationMinute State.deliver
  split
  · exact balanceEvent_sameBut s k 0 0 .minuteDue (by decide)
  · next r _ =>
    split
    · exact Eq.trans (balanceEvent_sameBut (s.reachMinute r) _ _ _ .minuteDue (by decide)) (reachMinute_sameBut s r .minuteDue (by decide))
    · rfl

/-- The balance of the first station owed, behind the transmissions due. -/
theorem balance_swept {s : State} {k : StationId} {ks : List StationId} (h : s.minuteDue.balance = k :: ks) :
    Swept [k] s (s.onLines.takeDue .balance).finish
      ∧ (s.onLines.takeDue .balance).finish.minuteDue = { s.minuteDue with balance := ks } := by
  have hline := onLines_sameBut s
  have hd : s.onLines.minuteDue = s.minuteDue := hline .minuteDue (by decide)
  have htake : s.onLines.takeDue .balance = (s.onLines.owing ks).stationMinute k := minuteBalance_cons (hd ▸ h)
  rw [htake]
  constructor
  · exact Swept.congr (SameBut.trans (hline.mono (by decide)) ((minuteDue_sameBut s.onLines _).mono (by decide)))
      ((finish_sameBut _).mono (by decide)) (stationMinute_swept _ k)
  · rw [show (((s.onLines.owing ks).stationMinute k).finish).minuteDue = ((s.onLines.owing ks).stationMinute k).minuteDue from
      finish_sameBut _ .minuteDue (by decide), stationMinute_minuteDue]
    show { s.onLines.minuteDue with balance := ks } = _
    rw [hd]

theorem takeEach_cons (s : State) (event : State → (State → State) → State) (e : DueEvent) (es : List DueEvent) :
    s.takeEach event (e :: es) = (if s.isDue e then event s (fun s => s.takeDue e) else s).takeEach event es := rfl

/-- The balances owed, one after another, where no request is taken. -/
theorem balances_swept {ks : List StationId} (nd : ks.Nodup) {s : State} (hs : s.settled) (hu : s.undisturbed)
    (hb : s.minuteDue.balance = ks) :
    Swept ks s (s.takeEach State.runWaiting (List.replicate ks.length .balance))
      ∧ (s.takeEach State.runWaiting (List.replicate ks.length .balance)).minuteDue = { s.minuteDue with balance := [] }
      ∧ (s.takeEach State.runWaiting (List.replicate ks.length .balance)).settled := by
  induction ks generalizing s with
  | nil =>
    refine ⟨Swept.refl s, ?_, hs⟩
    show s.minuteDue = _
    rw [← hb]
  | cons k ks ih =>
    obtain ⟨hk, nd'⟩ := List.nodup_cons.mp nd
    have hdue : s.isDue .balance = true := by
      show (!s.minuteDue.balance.isEmpty) = true
      rw [hb]
      rfl
    obtain ⟨hone, hleft⟩ := balance_swept hb
    obtain ⟨hs', hu'⟩ := takeDue_undisturbed hu .balance
    obtain ⟨hrest, hnone, hset⟩ := ih nd' hs' hu' (by rw [hleft])
    rw [List.length_cons, List.replicate_succ, takeEach_cons, if_pos hdue, runWaiting_of_undisturbed hs hu]
    exact ⟨hone.cons hk hrest, hnone.trans (by rw [hleft]), hset⟩

/-! ### What the records hold after the minute -/

theorem toStorage_int (x : Int) : (toStorage x : Int) = max 0 (min 4294967295 x) := by
  show ((min x.toNat 4294967295 : Nat) : Int) = _
  omega

theorem toStorage_toNat (x : Int) : toStorage x = (max 0 (min 4294967295 x)).toNat := by
  show min x.toNat 4294967295 = _
  omega

theorem withWindow_window (r : Station) (e : StationEntry) :
    ((r.withWindow e).qmin, (r.withWindow e).qmax) = windowFor e r.stage r.arrival r.qLocal := rfl

/-- The record of a present station after its balance event, with a valid storage estimate and without one. -/
theorem afterBalance_spec {e : StationEntry} (hp : e.isPresent = true) (r t : Station) (a x : Nat) (ht : t = r.afterBalance e a x) :
    t.arrival = a
    ∧ (r.storageValid = true →
        (t.storage : Int) = max 0 (min 4294967295 ((r.storage : Int) + 6 * ((a : Int) + r.qLocal - r.qOut)))
        ∧ t.sPred = some (max 0 (min 4294967295 ((t.storage : Int)
            + 6 * ((x : Int) + (e.horizon : Int) * ((r.qLocal : Int) - (r.qOut : Int)))))).toNat
        ∧ ∀ pred, t.sPred = some pred → t.stage = e.nextStage r.stage pred r.hw.level)
    ∧ (r.storageValid = false → t.storage = r.storage ∧ t.sPred = r.sPred ∧ t.stage = r.stage)
    ∧ (t.stage ≠ r.stage ∨ t.stage = .surcharge → (t.qmin, t.qmax) = windowFor e t.stage a r.qLocal)
    ∧ (t.stage = r.stage → t.stage ≠ .surcharge → t.qmin = r.qmin ∧ t.qmax = r.qmax)
    ∧ t.qLocal = r.qLocal ∧ t.qOut = r.qOut ∧ t.hw = r.hw ∧ t.mark0 = r.mark0 ∧ t.mark1 = r.mark1 := by
  cases hv : r.storageValid with
  | false =>
    have hr : t = r.arrived e a := by rw [ht, Station.afterBalance, if_pos hp, hv]; rfl
    subst hr
    unfold Station.arrived
    split
    · next hs =>
      exact ⟨rfl, nofun, fun _ => ⟨rfl, rfl, rfl⟩, fun _ => rfl, fun _ hn => absurd hs hn, rfl, rfl, rfl, rfl, rfl⟩
    · next hs =>
      exact ⟨rfl, nofun, fun _ => ⟨rfl, rfl, rfl⟩, fun h => absurd (h.resolve_left fun hn => hn rfl) hs, fun _ _ => ⟨rfl, rfl⟩,
        rfl, rfl, rfl, rfl, rfl⟩
  | true =>
    have hr : t = r.levelled e a x := by rw [ht, Station.afterBalance, if_pos hp, hv]; rfl
    have hstored : ∀ v : Station, v.storage = r.balanced a →
        v.sPred = some (predicted (r.balanced a) e.horizon r.qLocal r.qOut x) →
        v.stage = e.nextStage r.stage (predicted (r.balanced a) e.horizon r.qLocal r.qOut x) r.hw.level →
        (v.storage : Int) = max 0 (min 4294967295 ((r.storage : Int) + 6 * ((a : Int) + r.qLocal - r.qOut)))
        ∧ v.sPred = some (max 0 (min 4294967295 ((v.storage : Int)
            + 6 * ((x : Int) + (e.horizon : Int) * ((r.qLocal : Int) - (r.qOut : Int)))))).toNat
        ∧ ∀ pred, v.sPred = some pred → v.stage = e.nextStage r.stage pred r.hw.level := fun v h1 h2 h3 => by
      refine ⟨?_, ?_, fun pred hpred => ?_⟩
      · rw [h1]
        exact toStorage_int _
      · rw [h1, h2]
        exact congrArg some (toStorage_toNat _)
      · rw [h2] at hpred
        rw [← Option.some.inj hpred]
        exact h3
    subst hr
    unfold Station.levelled
    split
    · next hs =>
      exact ⟨rfl, fun _ => hstored _ rfl rfl rfl, nofun, fun _ => rfl, fun h1 h2 => absurd hs (not_or.mpr ⟨fun hn => hn h1, h2⟩),
        rfl, rfl, rfl, rfl, rfl⟩
    · next hs =>
      exact ⟨rfl, fun _ => hstored _ rfl rfl rfl, nofun, fun h => absurd h hs, fun _ _ => ⟨rfl, rfl⟩, rfl, rfl, rfl, rfl, rfl⟩

/-- The balance command, with the outflow taken and every balance owed, is the minute's cascade. -/
theorem exec_minuteBalance {s : State} (hq : s.quiet) (hu : s.undisturbed) (ho : s.minuteDue.outflow = false)
    (hb : s.minuteDue.balance = allFin 6) : ∃ t, exec (.modelMinute .balance) s = .next t
      ∧ t.minuteDue = { s.minuteDue with balance := [] } ∧ Swept (allFin 6) s t := by
  obtain ⟨hsw, hdue, hset⟩ := balances_swept (allFin_nodup 6) hq.1.1 hu hb
  refine ⟨_, ?_, hdue, hsw⟩
  show done (s.begun.takeAll (.outflow :: List.replicate (allFin 6).length .balance)) = _
  rw [begun_of_not_due hq.1.2.1 hq.1.2.2, takeAll_of_untold hq.2, takeEach_cons, if_neg (show ¬ s.isDue .outflow = true by
    rw [show s.isDue .outflow = s.minuteDue.outflow from rfl, ho]; decide), done_of_settled hset]

/-- Settles O37: each reach and each station is written once, and no balance changes what the next one reads of its neighbour. -/
theorem minuteBalancesEveryStation : Obligations.MinuteBalancesEveryStation := by
  intro s hq hf ho hb
  obtain ⟨t, hexec, hdue, hsw⟩ := exec_minuteBalance hq (undisturbed_of_fit hq hf) ho hb
  have hreach : ∀ r, t.reach r = s.delivered r := fun r => (hsw.reach r).trans (if_pos (mem_allFin _))
  refine ⟨t, hexec, hdue, fun r hp => ?_, fun k arrival ahead hp hgiven => ?_, hsw.rest⟩
  · have hr : t.reach r = (s.reach r).afterMinute (s.reachEntry r) (s.station (upperOf r)) := (hreach r).trans (if_pos hp)
    unfold Reach.afterMinute at hr
    refine ⟨fun h => ?_, fun h hpos => ?_, fun h hpos => ?_⟩
    · rw [if_neg (by rw [h]; decide)] at hr
      rw [hr]
      exact ⟨rfl, h, rfl⟩
    · rw [if_pos h, if_pos hpos] at hr
      exact hr
    · rw [if_pos h, if_neg (by rw [hpos]; decide)] at hr
      exact hr
  · have hin : s.inflow k = some (arrival, ahead) := by
      rcases hgiven with ⟨rfl, rfl, rfl⟩ | ⟨r, rfl, hr, rfl, rfl⟩
      · rfl
      · rw [inflow_lowerOf hr, hreach]
        rfl
    have hst : t.station k = (s.station k).afterBalance (s.stationEntry k) arrival ahead := by
      rw [hsw.station, if_pos (mem_allFin k)]
      unfold State.balancedAt
      rw [hin]
    exact afterBalance_spec hp _ _ _ _ hst

end Sys2Proof.Machine
end

section
/-! SET_CLOCK (R132): the minute's work still owed is taken first, then the counters are written. -/

namespace Sys2Proof.Machine

/-! ### The minute's work before a SET_CLOCK -/

/-- The parts that the work of a minute writes. -/
def minuteParts : List Part := [.portD, .report, .portF, .chans, .stations, .reaches, .gangs, .armed, .minuteDue, .freeCount]

/-- What is still owed of a minute behind one of its events. -/
def MinuteDue.after (d : MinuteDue) : DueEvent → MinuteDue
  | .outflow => { d with outflow := false }
  | .balance => { d with balance := d.balance.drop 1 }
  | .schedule => { d with schedule := false }
  | _ => d

theorem mem_minuteEvents {e : DueEvent} (he : e ∈ minuteEvents .whole) : e = .outflow ∨ e = .balance ∨ e = .schedule := by
  simp [minuteEvents] at he
  tauto

/-- An event of a minute that is not due has left nothing owed. -/
theorem after_of_not_due {s : State} {e : DueEvent} (he : e ∈ minuteEvents .whole) (h : s.isDue e = false) :
    s.minuteDue.after e = s.minuteDue := by
  rcases mem_minuteEvents he with rfl | rfl | rfl
  · have h : s.minuteDue.outflow = false := h
    show { s.minuteDue with outflow := false } = _
    rw [← h]
  · have h : s.minuteDue.balance = [] := List.isEmpty_iff.mp (by simpa [State.isDue] using h)
    show { s.minuteDue with balance := s.minuteDue.balance.drop 1 } = _
    rw [h, List.drop_nil, ← h]
  · have h : s.minuteDue.schedule = false := h
    show { s.minuteDue with schedule := false } = _
    rw [← h]

theorem minuteOutflow_after (s : State) :
    SameBut minuteParts s s.minuteOutflow ∧ s.minuteOutflow.minuteDue = s.minuteDue.after .outflow := by
  cases h : s.minuteDue.outflow with
  | true =>
    rw [minuteOutflow_due h]
    refine ⟨((outflowEvents_sameBut s).mono (by decide)).trans ((minuteDue_sameBut _ _).mono (by decide)), ?_⟩
    rw [minuteDue_outflowTaken, outflowEvents_sameBut s .minuteDue (by decide)]
    rfl
  | false =>
    have he : s.minuteOutflow = s := if_neg (by rw [h]; decide)
    rw [he]
    exact ⟨SameBut.refl _ _, (after_of_not_due (e := .outflow) (by decide) h).symm⟩

theorem minuteBalance_nil {s : State} (h : s.minuteDue.balance = []) : s.minuteBalance = s := by
  unfold State.minuteBalance
  rw [h]

theorem minuteBalance_after (s : State) :
    SameBut minuteParts s s.minuteBalance ∧ s.minuteBalance.minuteDue = s.minuteDue.after .balance := by
  cases h : s.minuteDue.balance with
  | nil =>
    rw [minuteBalance_nil h]
    exact ⟨SameBut.refl _ _, (after_of_not_due (e := .balance) (by decide) (by simp [State.isDue, h])).symm⟩
  | cons k ks =>
    rw [minuteBalance_cons h]
    refine ⟨((minuteDue_sameBut s _).mono (by decide)).trans ((stationMinute_swept (s.owing ks) k).rest.mono (by decide)), ?_⟩
    rw [stationMinute_minuteDue]
    show { s.minuteDue with balance := ks } = { s.minuteDue with balance := s.minuteDue.balance.drop 1 }
    rw [h]
    rfl

theorem scheduleEvent_sameBut (s : State) : SameBut [.armed, .chans, .gangs, .portF, .portD, .report] s s.scheduleEvent :=
  forEach_sameBut (fun n s => fire_sameBut s n) _ _

theorem minuteSchedule_after (s : State) :
    SameBut minuteParts s s.minuteSchedule ∧ s.minuteSchedule.minuteDue = s.minuteDue.after .schedule := by
  cases h : s.minuteDue.schedule with
  | true =>
    rw [show s.minuteSchedule = ({ s with minuteDue := { s.minuteDue with schedule := false } } : State).scheduleEvent from if_pos h]
    exact ⟨((minuteDue_sameBut s _).mono (by decide)).trans ((scheduleEvent_sameBut _).mono (by decide)),
      scheduleEvent_sameBut _ .minuteDue (by decide)⟩
  | false =>
    have he : s.minuteSchedule = s := if_neg (by rw [h]; decide)
    rw [he]
    exact ⟨SameBut.refl _ _, (after_of_not_due (e := .schedule) (by decide) h).symm⟩

/-- An event of a minute writes the minute's parts, and is owed no more. -/
theorem minuteEvent_after (s : State) {e : DueEvent} (he : e ∈ minuteEvents .whole) :
    SameBut minuteParts s (s.takeDue e) ∧ (s.takeDue e).minuteDue = s.minuteDue.after e := by
  rcases mem_minuteEvents he with rfl | rfl | rfl
  · exact minuteOutflow_after s
  · exact minuteBalance_after s
  · exact minuteSchedule_after s

/-- The events of a minute behind the transmissions due, one after another. -/
theorem minuteEvents_after {es : List DueEvent} (hes : ∀ e ∈ es, e ∈ minuteEvents .whole) (s : State) :
    SameBut minuteParts s (s.takeEach (fun s f => (f s.onLines).finish) es)
      ∧ (s.takeEach (fun s f => (f s.onLines).finish) es).minuteDue = es.foldl MinuteDue.after s.minuteDue := by
  induction es generalizing s with
  | nil => exact ⟨SameBut.refl _ _, rfl⟩
  | cons e es ih =>
    have he := hes e (List.mem_cons_self ..)
    have ih := ih fun x hx => hes x (List.mem_cons_of_mem _ hx)
    rw [takeEach_cons]
    cases h : s.isDue e with
    | false =>
      obtain ⟨hrest, hdue⟩ := ih s
      rw [if_neg (by decide)]
      exact ⟨hrest, by rw [hdue, List.foldl_cons, after_of_not_due he h]⟩
    | true =>
      obtain ⟨hev, hleft⟩ := minuteEvent_after s.onLines he
      obtain ⟨hrest, hdue⟩ := ih (s.onLines.takeDue e).finish
      rw [if_pos rfl]
      refine ⟨((onLines_sameBut s).mono (by decide)).trans (hev.trans (((finish_sameBut _).mono (by decide)).trans hrest)), ?_⟩
      rw [hdue, quiet_minuteDue.finish, hleft, lined_minuteDue.onLines]
      rfl

/-- After the events of a whole minute nothing is owed of it. -/
theorem whole_after {d : MinuteDue} (h : d.balance.length ≤ 6) : (minuteEvents .whole).foldl MinuteDue.after d = MinuteDue.none := by
  have hnone : d.balance.drop 6 = [] := List.drop_eq_nil_of_le h
  show ({ outflow := false, balance := (((((d.balance.drop 1).drop 1).drop 1).drop 1).drop 1).drop 1, schedule := false }
    : MinuteDue) = _
  rw [List.drop_drop, List.drop_drop, List.drop_drop, List.drop_drop, List.drop_drop, hnone]
  rfl

/-- The work a SET_CLOCK waits for writes the minute's parts alone. -/
theorem beforeTaking_sameBut (s : State) (p : List Byte) : SameBut minuteParts s (s.beforeTaking p) := by
  unfold State.beforeTaking
  split
  · exact (minuteEvents_after (fun _ h => h) s).1.trans ((onLines_sameBut _).mono (by decide))
  · exact SameBut.refl _ _

theorem beforeTaking_minuteDue {s : State} {p : List Byte} (hc : s.setsClock p = true) (ho : s.minuteOwed = true)
    (hl : s.minuteDue.balance.length ≤ 6) : (s.beforeTaking p).minuteDue = MinuteDue.none := by
  unfold State.beforeTaking
  rw [hc, ho, if_pos (by decide), lined_minuteDue.onLines, (minuteEvents_after (fun _ h => h) s).2, whole_after hl]

/-! ### The request itself -/

/-- The state with the counters of a SET_CLOCK. -/
def State.clocked (s : State) (c : Clock) : State := { s with clock := c, prescaler := 0 }

/-- A SET_CLOCK carried out: the counters and CLOCK_SET (R132). -/
def State.clockSet (s : State) (c : Clock) : State :=
  (s.clocked c).notify .clockSet .none s.clock.day s.clock.plantTime.second

theorem clocked_sameBut (s : State) (c : Clock) : SameBut [.clock] s (s.clocked c) := by
  intro x hx
  cases x <;> first | exact ⟨rfl, rfl⟩ | rfl | simp at hx

theorem clockSet_sameBut (s : State) (c : Clock) : SameBut [.clock, .portD, .report] s (s.clockSet c) :=
  ((clocked_sameBut s c).mono (by decide)).trans ((notify_sameBut _ _ _ _ _).mono (by decide))

theorem clockSet_clock (s : State) (c : Clock) : (s.clockSet c).clock = c ∧ (s.clockSet c).prescaler = 0 :=
  notify_sameBut (s.clocked c) _ _ _ _ .clock (by decide)

theorem clockSet_settled {s : State} (h : s.settled) (c : Clock) : (s.clockSet c).settled :=
  notify_settled (s := s.clocked c) (h.of_same rfl rfl rfl rfl rfl) _ _ _ _

theorem handleSetClock_valid {s : State} {args : List Byte} (hl : args.length = 6) (hv : (readClock args).valid = true) :
    s.handleSetClock args = (s.clockSet (readClock args)).grant (s.clock.bytes ++ (readClock args).bytes) := by
  unfold State.handleSetClock
  rw [if_pos (show clockArgs args = true by unfold clockArgs; rw [hl, hv]; rfl)]
  rfl

theorem clockArgs_invalid {args : List Byte} (h : (readClock args).valid = false) : clockArgs args = false := by
  unfold clockArgs
  rw [h, Bool.and_false]

theorem setsClock_of_asks {s : State} {p : List Byte} (ha : s.asks p .setClock) : s.setsClock p = clockArgs (reqArgs p) := by
  obtain ⟨_, hroom, hm, hread⟩ := ha
  unfold State.setsClock
  rw [hroom, hm, hread]
  rfl

/-- A request asked for is still asked for behind what touches neither the inbox nor the plan, with room left. -/
theorem asks_of_sameBut {ps : List Part} {s t : State} {p : List Byte} {r : Request} (ha : s.asks p r) (h : SameBut ps s t)
    (hi : .inbox ∉ ps) (hp : .store ∉ ps) (ho : t.ownRoom = true) : t.asks p r := by
  obtain ⟨hin, _, hm, hread⟩ := ha
  exact ⟨(h .inbox hi).trans hin, ho, by rw [active_of_sameBut hp h]; exact hm, hread⟩

/-- A valid SET_CLOCK taken: its answer from the state that finds it, the counters written, the notice and the reply. -/
theorem respond_setClock {s : State} {p : List Byte} (hs : s.settled) (ha : s.asks p .setClock) (hl : (reqArgs p).length = 6)
    (hv : (readClock (reqArgs p)).valid = true) :
    s.respond p = (s.reserve.clockSet (readClock (reqArgs p))).placeReply p .done (s.clock.bytes ++ (readClock (reqArgs p)).bytes)
      ∧ Replied s (s.respond p) p .done (s.clock.bytes ++ (readClock (reqArgs p)).bytes) := by
  have hread : readRequest p ≠ .restart := by rw [ha.2.2.2]; nofun
  have hj : s.reserve.judgeRequest p
      = (s.reserve.clockSet (readClock (reqArgs p))).grant (s.clock.bytes ++ (readClock (reqArgs p)).bytes) :=
    (judgeRequest_asks ha).trans (handleSetClock_valid hl hv)
  have he := respond_eq (s := s) hread
  have hr := respond_replied (s := s) hread
  rw [hj] at he hr
  exact ⟨he.trans (placeReply_settled (clockSet_settled (reserve_settled hs) _) p _ _), hr⟩

/-- The row of SET_CLOCK takes the minute first, and then the request when UP_OWN still has room. -/
theorem row_setClock {s : State} {p : List Byte} (hs : s.ready) (ha : s.asks p .setClock) : exec .setClock s
    = .next (if (s.beforeTaking p).ownRoom = true then (s.beforeTaking p).respond p else s.beforeTaking p) := by
  obtain ⟨hi, ho, hm, hread⟩ := ha
  have hib : (s.beforeTaking p).inbox = [p] := (beforeTaking_sameBut s p .inbox (by decide)).trans hi
  have hserve : s.serveRow (· == .setClock)
      = if (s.beforeTaking p).ownRoom = true then (s.beforeTaking p).respond p else s.beforeTaking p := by
    unfold State.serveRow
    rw [hi]
    simp only
    rw [if_pos (by rw [hread]; rfl)]
    unfold State.serve
    rw [hi]
    simp only
    split
    · rw [betweenRequests_of_empty (respond_only hib)]
      rfl
    · rfl
  have hset : (if (s.beforeTaking p).ownRoom = true then (s.beforeTaking p).respond p else s.beforeTaking p).settled := by
    split
    · exact settled_finish _
    · exact beforeTaking_settled p hs.1
  show done (s.begun.serveRow (· == .setClock)) = _
  rw [begun_of_not_due hs.2.1 hs.2.2, hserve, done_of_settled hset]

/-- Settles O49: the request is judged behind the minute's work, which does not touch the counters. -/
theorem setClockWritesTheCounters : Obligations.SetClockWritesTheCounters := by
  intro s p hs ha hl
  have hrow := row_setClock hs ha
  refine ⟨fun hbad => ?_, fun hv => ?_⟩
  · have hargs := clockArgs_invalid hbad
    have hb : s.beforeTaking p = s := beforeTaking_of (.inl ((setsClock_of_asks ha).trans hargs))
    have hh : s.reserve.handle .setClock (reqArgs p) = s.reserve.deny .badArgument := if_neg (by rw [hargs]; decide)
    rw [hrow, hb, if_pos ha.2.1, respond_of_refused hs.1 ha hh (.inl nofun)]
  · have hsame := beforeTaking_sameBut s p
    have hclock := hsame .clock (by decide)
    have hsets : s.setsClock p = true := by
      rw [setsClock_of_asks ha]
      unfold clockArgs
      rw [hl, hv]
      rfl
    refine ⟨fun hroom => ?_, fun hroom => ?_, fun howed hlen => ⟨beforeTaking_minuteDue hsets howed hlen, hsame⟩, fun howed => ?_⟩
    · obtain ⟨hres, hrep⟩ := respond_setClock (beforeTaking_settled p hs.1) (asks_of_sameBut ha hsame (by decide) (by decide) hroom)
        hl hv
      rw [hclock.1] at hres hrep
      have hdone : SameBut [.clock, .portD, .report, .inbox, .told] (s.beforeTaking p) ((s.beforeTaking p).respond p) := by
        rw [hres]
        exact ((reserve_sameBut _).mono (by decide)).trans (((clockSet_sameBut _ _).mono (by decide)).trans
          ((placeReply_sameBut _ _ _ _).mono (by decide)))
      refine ⟨_, by rw [hrow, if_pos hroom], ?_, ?_, ⟨hrep.1.trans ?_, hrep.2⟩, (hsame.mono (by decide)).trans (hdone.mono (by decide))⟩
      · rw [hres]
        exact (clockSet_clock _ _).1
      · rw [hres]
        exact (clockSet_clock _ _).2
      · rw [show (s.beforeTaking p).inbox = s.inbox from hsame .inbox (by decide)]
    · rw [hrow, if_neg (by rw [hroom]; decide)]
    · have hb : s.beforeTaking p = s := beforeTaking_of (.inr howed)
      obtain ⟨hres, _⟩ := respond_setClock hs.1 ha hl hv
      rw [hb, if_pos ha.2.1] at hrow
      refine ⟨_, hrow, ?_, ?_, ?_, fun hspace => ?_⟩
      · rw [hres]
        exact ((reserve_sameBut _).mono (by decide)).trans (((clockSet_sameBut _ _).mono (by decide)).trans
          ((placeReply_sameBut _ _ _ _).mono (by decide)))
      · rw [hres]
        exact clockSet_sameBut s.reserve _ .portF (by decide)
      · rw [hres]
        unfold State.clockSet State.notify
        split <;> rfl
      · have hown : (s.reserve.clocked (readClock (reqArgs p))).ownRoom = true :=
          decide_eq_true (show s.portD.own.length + (s.portD.reserved + 1) < 32 by omega)
        rw [hres]
        unfold State.clockSet State.notify
        rw [if_pos hown]
        exact List.append_assoc ..

end Sys2Proof.Machine
end

section
/-! What a COMMIT does behind the channels, stations and reaches (R92, R124): the gangs take their new members, their events follow,
and the silence records come to their new entries. -/

namespace Sys2Proof.Machine

/-! ### What the events behind the gangs keep -/

/-- A property that the gangs' events, a resumption and the writes of silence records and armed marks keep. -/
structure Settles (P : State → Prop) : Prop where
  review : ∀ s c, P s → P (s.gangReview .other c)
  judge : ∀ s g, P s → P (s.judge g)
  notice : ∀ s kind subject d v, P s → P (s.notify kind subject d v)
  leave : ∀ s g, (s.chan g).state = .hold .silence → P s → P (s.enter g .idle)
  unmark : ∀ s g, P s → P (s.setChan g { s.chan g with silencePending := false })
  turn : ∀ s g, (s.chan g).source = .fallback → P s → P (s.setChan g { s.chan g with source := .dispatch })
  silence : ∀ s k r, P s → P (s.setSilence k r)
  armed : ∀ (s : State) a, P s → P { s with armed := a }

/-- A property the gang machinery keeps settles when a resumption's own writes keep it. -/
theorem Settles.of_turns {P : State → Prop} (q : Turns P)
    (leave : ∀ s g, (s.chan g).state = .hold .silence → P s → P (s.enter g .idle))
    (unmark : ∀ s g, P s → P (s.setChan g { s.chan g with silencePending := false }))
    (turn : ∀ s g, (s.chan g).source = .fallback → P s → P (s.setChan g { s.chan g with source := .dispatch }))
    (silence : ∀ s k r, P s → P (s.setSilence k r)) (armed : ∀ (s : State) a, P s → P { s with armed := a }) : Settles P where
  review _ _ h := q.gangReview _ _ h
  judge _ _ h := q.judge _ h
  notice _ _ _ _ _ h := q.notice _ _ _ _ _ h
  leave := leave
  unmark := unmark
  turn := turn
  silence := silence
  armed := armed

/-- Another channel's leaving of a silence hold leaves a channel as it is. -/
theorem leaveSilenceHold_chan_ne {s : State} {g h : Gate} (hne : h ≠ g) : (s.leaveSilenceHold g).chan h = s.chan h := by
  unfold State.leaveSilenceHold
  simp only
  split
  · rcases judge_chan_cases (s.enter g .idle) h g with hk | ⟨he, _⟩
    · rw [hk, enter_chan_ne _ _ hne]
    · exact absurd he.symm hne
  · exact enter_chan_ne _ _ hne

section settles

variable {P : State → Prop} (q : Settles P) {s : State}

include q

theorem Settles.leaveSilenceHold {g : Gate} (hg : (s.chan g).state = .hold .silence) (h : P s) : P (s.leaveSilenceHold g) := by
  have h1 := q.leave s g hg h
  unfold State.leaveSilenceHold
  simp only
  split
  · exact q.judge _ _ h1
  · exact h1

theorem Settles.leaveAll {gs : List Gate} (nd : gs.Nodup) (hgs : ∀ g ∈ gs, (s.chan g).state = .hold .silence) (h : P s) :
    P (forEach gs (fun g s => s.leaveSilenceHold g) s) := by
  induction gs generalizing s with
  | nil => exact h
  | cons g gs ih =>
    obtain ⟨hg, nd'⟩ := List.nodup_cons.mp nd
    refine ih nd' (fun x hx => ?_) (q.leaveSilenceHold (hgs g (List.mem_cons_self ..)) h)
    have hne : x ≠ g := fun e => hg (e ▸ hx)
    rw [leaveSilenceHold_chan_ne hne]
    exact hgs x (List.mem_cons_of_mem _ hx)

theorem Settles.turnAll {gs : List Gate} (nd : gs.Nodup) (hgs : ∀ g ∈ gs, (s.chan g).source = .fallback) (h : P s) :
    P (forEach gs (fun g s => s.setChan g { s.chan g with source := .dispatch }) s) := by
  induction gs generalizing s with
  | nil => exact h
  | cons g gs ih =>
    obtain ⟨hg, nd'⟩ := List.nodup_cons.mp nd
    refine ih nd' (fun x hx => ?_) (q.turn s g (hgs g (List.mem_cons_self ..)) h)
    have hne : x ≠ g := fun e => hg (e ▸ hx)
    rw [chan_setChan_ne _ _ hne]
    exact hgs x (List.mem_cons_of_mem _ hx)

theorem Settles.resumeStation (k : StationId) (timer : Option Nat) (cause : ResumeCause) (h : P s) :
    P (s.resumeStation k timer cause) := by
  have hheld : P (s.unheld k timer) := by
    refine q.leaveAll ((gatesOf_nodup _ _).filter _) (fun g hg => ?_) (q.silence _ _ _ h)
    exact beq_iff_eq.mp (List.mem_filter.mp hg).2
  have hmark : P ((s.unheld k timer).unmarked k) := forEach_preserves (fun g t ht => q.unmark t g ht) _ _ hheld
  have hturn : P (((s.unheld k timer).unmarked k).sourced k (s.silenceOf k).level) :=
    q.turnAll (turned_nodup _ _ _) (fun g hg => (mem_turned.mp hg).2.2) hmark
  rw [resumeStation_eq]
  exact forEach_preserves (fun c t ht => q.review t c ht) _ _ (q.notice _ _ _ _ _ hturn)

theorem Settles.commitSilence (old : Plan) (k : StationId) (h : P s) : P (s.commitSilence old k) := by
  unfold State.commitSilence
  simp only
  split
  · split
    · exact q.silence _ _ _ h
    · split
      · exact q.silence _ _ _ h
      · exact q.resumeStation _ _ _ h
  · split
    · exact q.silence _ _ _ h
    · split
      · split
        · exact q.silence _ _ _ h
        · exact q.notice _ _ _ _ _ (q.silence _ _ _ h)
      · exact h

end settles

/-- The part of a COMMIT behind the gangs: their events, the silence records, the armed marks. -/
def State.planRest (s : State) (old : Plan) : State :=
  let s := s.gangReviews .other (Plan.gangList s.active)
  let s := forEach (allFin 6) (fun k s => s.commitSilence old k) s
  { s with armed := Tab.gen fun n => (s.active.sched.get n).isPresent }

/-- The gangs at a COMMIT. -/
def State.commitGangs (s : State) (old : Plan) : State := forEach (allFin 8) (fun c s => s.commitGang old c) s

theorem planTail_eq (s : State) (old : Plan) : s.planTail old = (s.commitGangs old).planRest old := rfl

theorem Settles.planRest {P : State → Prop} (q : Settles P) {s : State} (old : Plan) (h : P s) : P (s.planRest old) :=
  q.armed _ _ (forEach_preserves (fun k _ ht => q.commitSilence old k ht) _ _
    (forEach_preserves (fun c t ht => q.review t c ht) _ _ h))

theorem Turns.commitGangs {P : State → Prop} (q : Turns P) {s : State} (old : Plan) (h : P s) : P (s.commitGangs old) :=
  forEach_preserves (fun c _ ht => q.commitGang old c ht) _ _ h

/-! ### What the gangs' part writes -/

theorem commitGangs_sameBut (s : State) (old : Plan) : SameBut [.chans, .gangs, .portF, .portD, .report] s (s.commitGangs old) :=
  forEach_sameBut (fun c t => sameBut_of_quiet fun q => q.commitGang t old c) _ _

theorem gangReviews_sameBut (s : State) (kind : GangCause) (cs : List GangId) :
    SameBut [.chans, .gangs, .portF, .portD, .report] s (s.gangReviews kind cs) := sameBut_of_quiet fun q => q.gangReviews _ _ _

theorem commitSilence_sameBut (s : State) (old : Plan) (k : StationId) :
    SameBut [.silence, .chans, .gangs, .portF, .portD, .report] s (s.commitSilence old k) := by
  unfold State.commitSilence
  simp only
  have hset := fun r => (setSilence_sameBut s k r).mono (qs := [.silence, .chans, .gangs, .portF, .portD, .report]) (by decide)
  split
  · split
    · exact hset _
    · split
      · exact hset _
      · exact resumeStation_sameBut _ _ _ _
  · split
    · exact hset _
    · split
      · split
        · exact hset _
        · exact (hset _).trans ((notify_sameBut _ _ _ _ _).mono (by decide))
      · exact SameBut.refl _ _

/-- The armed marks of the schedule entries of ACTIVE. -/
def State.rearmed (s : State) : State := { s with armed := Tab.gen fun n => (s.active.sched.get n).isPresent }

theorem rearmed_sameBut (s : State) : SameBut [.armed] s s.rearmed := by
  intro x hx
  cases x <;> first | exact ⟨rfl, rfl⟩ | rfl | simp at hx

theorem planRest_sameBut (s : State) (old : Plan) :
    SameBut [.silence, .chans, .gangs, .portF, .portD, .report, .armed] s (s.planRest old) :=
  ((gangReviews_sameBut s _ _).mono (by decide)).trans (((forEach_sameBut (fun k t => commitSilence_sameBut t old k) _ _).mono
    (by decide)).trans ((rearmed_sameBut _).mono (by decide)))

theorem planTail_sameBut (s : State) (old : Plan) :
    SameBut [.silence, .chans, .gangs, .portF, .portD, .report, .armed] s (s.planTail old) :=
  ((commitGangs_sameBut s old).mono (by decide)).trans (planRest_sameBut _ old)

theorem planTail_armed (s : State) (old : Plan) (n : Fin 32) :
    (s.planTail old).armed.get n = (s.active.sched.get n).isPresent := by
  have hactive : (s.planTail old).active = s.active := active_of_sameBut (by decide) (planTail_sameBut s old)
  refine (Tab.get_gen ..).trans ?_
  rw [← hactive]
  rfl

/-! ### The silence records at a COMMIT (R124) -/

/-- A silence record at a COMMIT, from whether its station was present and its new entry. -/
def SilenceRec.atCommit (r : SilenceRec) (was : Bool) (e : StationEntry) : SilenceRec :=
  if was && e.isPresent then
    if 0 < e.silenceCount then { r with timer := if r.level = .l2 then none else restartedTimer e }
    else { level := .l0, timer := none }
  else if e.isPresent then silenceReset e
  else if was then { level := .l0, timer := none }
  else r

theorem silenceOf_of_sameBut {ps : List Part} {s t : State} (hp : Part.silence ∉ ps) (h : SameBut ps s t) (k : StationId) :
    t.silenceOf k = s.silenceOf k := congrArg (fun x => Tab.get x k) (h .silence hp)

theorem resumeStation_silenceOf (s : State) (k : StationId) (timer : Option Nat) (cause : ResumeCause) (j : StationId) :
    (s.resumeStation k timer cause).silenceOf j = if j = k then { level := .l0, timer := timer } else s.silenceOf j :=
  (congrArg (fun x => Tab.get x j) (resumeStation_silence s k timer cause)).trans (silenceOf_setSilence ..)

theorem commitSilence_silenceOf (s : State) (old : Plan) (k j : StationId) : (s.commitSilence old k).silenceOf j
    = if j = k then (s.silenceOf k).atCommit (old.stations.get k).isPresent (s.stationEntry k) else s.silenceOf j := by
  unfold State.commitSilence SilenceRec.atCommit
  simp only
  split
  · split
    · exact silenceOf_setSilence ..
    · split
      · next h0 =>
        rw [silenceOf_setSilence, ← h0]
      · exact resumeStation_silenceOf ..
  · split
    · exact silenceOf_setSilence ..
    · split
      · split
        · exact silenceOf_setSilence ..
        · rw [silenceOf_of_sameBut (by decide) (notify_sameBut _ _ _ _ _)]
          exact silenceOf_setSilence ..
      · split
        · next hj => rw [hj]
        · rfl

theorem planTail_silenceOf (s : State) (old : Plan) (k : StationId) : (s.planTail old).silenceOf k
    = (s.silenceOf k).atCommit (old.stations.get k).isPresent (s.stationEntry k) := by
  have hgangs : SameBut [.chans, .gangs, .portF, .portD, .report] s
      ((s.commitGangs old).gangReviews .other (Plan.gangList (s.commitGangs old).active)) :=
    (commitGangs_sameBut s old).trans (gangReviews_sameBut _ _ _)
  have hall := (forEach_at State.silenceOf (fun k t => t.commitSilence old k) (fun t => t.active = s.active)
    (fun k r => r.atCommit (old.stations.get k).isPresent (s.stationEntry k))
    (fun k t ht => (active_of_sameBut (by decide) (commitSilence_sameBut t old k)).trans ht)
    (fun k t ht => by
      rw [commitSilence_silenceOf, if_pos rfl]
      unfold State.stationEntry
      rw [ht])
    (fun k j t _ hne => by rw [commitSilence_silenceOf, if_neg hne]) (allFin_nodup 6)
    (active_of_sameBut (by decide) hgangs)).1 k (mem_allFin k)
  refine Eq.trans ?_ (hall.trans ?_)
  · exact silenceOf_of_sameBut (by decide) (rearmed_sameBut _) k
  · rw [silenceOf_of_sameBut (by decide) hgangs]

/-! ### Channels behind the gangs -/

/-- A channel in WAIT or UNBOUND that nothing marks, stays as it is. -/
theorem settles_resting {g : Gate} {c : Channel} (hst : c.state = .wait ∨ c.state = .unbound) (hp : c.silencePending = false)
    (hs : c.source = .none) : Turns (fun s => s.chan g = c) ∧ Settles fun s => s.chan g = c := by
  have q : Turns fun s => s.chan g = c := turns_stays (by rcases hst with h | h <;> rw [h] <;> rfl)
  refine ⟨q, .of_turns q (fun s i hi h => ?_) (fun s i h => ?_) (fun s i hi h => ?_) (fun _ _ _ h => h) fun _ _ h => h⟩
  · rw [enter_chan_ne]
    · exact h
    · rintro rfl
      rw [h] at hi
      rcases hst with h' | h' <;> rw [h'] at hi <;> cases hi
  · rw [chan_setChan]
    split
    · next e => rw [← e, h, ← hp]
    · exact h
  · rw [chan_setChan]
    split
    · next e =>
      rw [← e, h, hs] at hi
      cases hi
    · exact h

/-- What a channel measured and is governed by. -/
def State.readings (s : State) (g : Gate) : Option Nat × Nat × Option Nat × ClampMark :=
  ((s.chan g).measured, (s.chan g).age, (s.chan g).governed, (s.chan g).clamp)

theorem readings_setChan_same {s : State} {i : Gate} {c : Channel} (hm : c.measured = (s.chan i).measured)
    (ha : c.age = (s.chan i).age) (hg : c.governed = (s.chan i).governed) (hc : c.clamp = (s.chan i).clamp) (g : Gate) :
    (s.setChan i c).readings g = s.readings g := by
  unfold State.readings
  rw [chan_setChan]
  split
  · next e => rw [e, hm, ha, hg, hc]
  · rfl

theorem blind_readings (g : Gate) : Blind fun s => s.readings g where
  move s i st start dir tag pend := readings_setChan_same (c := (s.chan i).moved st start dir tag pend) rfl rfl rfl rfl g
  gang _ _ _ := rfl
  portF _ _ _ _ _ := rfl
  report _ _ := rfl
  own _ _ := rfl

theorem settles_readings (g : Gate) (x : Option Nat × Nat × Option Nat × ClampMark) : Settles fun s => s.readings g = x where
  review _ _ h := ((blind_readings g).gangReview _ _ _).trans h
  judge _ _ h := ((blind_readings g).judge _ _).trans h
  notice _ _ _ _ _ h := ((blind_readings g).notify _ _ _ _ _).trans h
  leave _ _ _ h := ((blind_readings g).enter _ _ _).trans h
  unmark s i h := (readings_setChan_same (c := { s.chan i with silencePending := false }) rfl rfl rfl rfl g).trans h
  turn s i _ h := (readings_setChan_same (c := { s.chan i with source := .dispatch }) rfl rfl rfl rfl g).trans h
  silence _ _ _ h := h
  armed _ _ h := h

theorem planTail_readings (s : State) (old : Plan) (g : Gate) : (s.planTail old).readings g = s.readings g := by
  rw [planTail_eq]
  refine (settles_readings g (s.readings g)).planRest old ?_
  exact forEach_keeps (π := fun s => s.readings g) (fun c t => (blind_readings g).commitGang t old c) _ _

/-- The snapshot and the sampler's interval, which no rule of a block writes. -/
def State.settings (s : State) : Option Snapshot × Nat := (s.report.snapshot, s.report.sampler.interval)

theorem notify_settings (s : State) (kind : NoticeKind) (subject : Subject) (d v : Nat) :
    (s.notify kind subject d v).settings = s.settings := by
  unfold State.notify
  split <;> rfl

theorem endTrace_settings (s : State) (cause : EndCause) : (s.endTrace cause).settings = s.settings := by
  unfold State.endTrace
  split <;> rfl

theorem settings_of_sameBut {ps : List Part} {s t : State} (hp : Part.report ∉ ps) (h : SameBut ps s t) :
    t.settings = s.settings := congrArg (fun r : Report => (r.snapshot, r.sampler.interval)) (h .report hp)

theorem noteEnqueued_settings (s : State) (g : Gate) : (s.noteEnqueued g).settings = s.settings := by
  unfold State.noteEnqueued
  split
  · split <;> rfl
  · rfl

theorem startIncrement_settings (s : State) (g : Gate) (target : Nat) (w : FieldQueue) :
    (s.startIncrement g target w).settings = s.settings := by
  unfold State.startIncrement
  simp only
  rw [noteEnqueued_settings]
  exact congrArg (fun r : Report => (r.snapshot, r.sampler.interval)) (enter_report ..)

theorem finish_settings (s : State) : s.finish.settings = s.settings := by
  unfold State.finish
  simp only
  split
  · rfl
  · split
    case h_6 => split <;> first | rfl | exact endTrace_settings ..
    all_goals first | rfl | exact endTrace_settings ..

theorem settles_settings (x : Option Snapshot × Nat) : Turns (fun s => s.settings = x) ∧ Settles fun s => s.settings = x := by
  have henter : ∀ (s : State) g st, s.settings = x → (s.enter g st).settings = x := fun s g st h =>
    (settings_of_sameBut (by decide) (enter_sameBut s g st)).trans h
  have q : Turns fun s => s.settings = x :=
    { gang := fun _ _ _ h => h
      waits := fun _ _ _ h => h
      notice := fun _ _ _ _ _ h => (notify_settings ..).trans h
      start := fun _ _ _ _ _ _ h => (startIncrement_settings ..).trans h
      hold := fun s g _ h => henter s g _ h
      wake := fun s g _ h => henter s g _ h
      free := fun s g _ h => henter s g _ h }
  exact ⟨q, .of_turns q (fun s g _ h => henter s g _ h) (fun _ _ h => h) (fun _ _ _ h => h) (fun _ _ _ h => h) fun _ _ h => h⟩

/-! ### Which channels hold a gang -/

/-- A channel's state blocks its gang as before: no move of the gang machinery enters or leaves such a state. -/
theorem turns_blocks (m : Gate) (b : Bool) : Turns fun s => (s.chan m).state.blocks = b := by
  have henter : ∀ (s : State) (g : Gate) (st : ChanState), (s.chan g).state.blocks = false → st.blocks = false →
      (s.chan m).state.blocks = b → ((s.enter g st).chan m).state.blocks = b := fun s g st hs hst h => by
    rw [enter_chan]
    split
    · next e =>
      rw [e, hs] at h
      exact hst.trans h
    · exact h
  exact
    { gang := fun _ _ _ h => h
      waits := fun _ _ _ h => h
      notice := fun s kind subject d v h => by rw [chan_notify]; exact h
      start := fun s g target hw _ _ h => by
        rw [startIncrement_chan]
        split
        · next e =>
          rw [e, workTarget_idle hw] at h
          exact h
        · exact h
      hold := fun s g hst h => henter s g _ (by
        rcases hst with hst | hst | hst
        · rw [hst]; rfl
        · cases hc : (s.chan g).state <;> rw [hc] at hst <;> first | rfl | cases hst
        · rw [hst]; rfl) rfl h
      wake := fun s g hst h => henter s g _ (by
        cases hc : (s.chan g).state <;> rw [hc] at hst <;> first | rfl | cases hst) rfl h
      free := fun s g hst h => henter s g _ (by rw [hst]; rfl) (by unfold State.afterGangHold; split <;> rfl) h }

/-- What a gang's hold is judged by stays: the plan, the gang's out marks and the states that block it. -/
structure Unmoved (c : GangId) (s t : State) : Prop where
  active : t.active = s.active
  out : (t.gang c).out = (s.gang c).out
  blocks : ∀ m, (t.chan m).state.blocks = (s.chan m).state.blocks

theorem Unmoved.blockers {c : GangId} {s t : State} (h : Unmoved c s t) : t.blockers c = s.blockers c :=
  blockers_congr h.active h.out h.blocks

/-- What a gang's record shows behind a COMMIT that gave it new members: a reset record, held when a member blocks it (R92). -/
structure GangStarted (c : GangId) (last : Option Gate) (s : State) : Prop where
  lastMover : (s.gang c).lastMover = last
  dwell : (s.gang c).dwell = none
  out : (s.gang c).out = []
  hold : (s.gang c).hold = true ↔ s.blockers c ≠ []

theorem GangStarted.of_unmoved {c : GangId} {last : Option Gate} {s t : State} (h : GangStarted c last s) (hm : Unmoved c s t)
    (hg : t.gang c = s.gang c) : GangStarted c last t :=
  ⟨by rw [hg, h.lastMover], by rw [hg, h.dwell], by rw [hg, h.out], by rw [hg, hm.blockers, h.hold]⟩

theorem gangReview_nil {s : State} {c : GangId} (h : s.members c = []) (kind : GangCause) : s.gangReview kind c = s := by
  unfold State.gangReview
  rw [h]

theorem gangReview_cons {s : State} {c : GangId} {m : Gate} {ms : List Gate} (h : s.members c = m :: ms) (kind : GangCause) :
    s.gangReview kind c = (((s.judgeHold c m).checkDwell c).checkTurn c kind none).scan c none := by
  unfold State.gangReview
  rw [h]

theorem gangReview_kept (s : State) (c : GangId) (kind : GangCause) : GangKept c s (s.gangReview kind c) := by
  cases h : s.members c with
  | nil =>
    rw [gangReview_nil h]
    exact .of_gangs fun _ => rfl
  | cons m ms =>
    rw [gangReview_cons h]
    exact (((judgeHold_kept s c m).trans (checkDwell_kept _ c).1).trans (checkTurn_kept _ c kind none).1).trans (scan_kept _ c none).1

theorem gangReview_unmoved (s : State) (c j : GangId) (kind : GangCause) : Unmoved j s (s.gangReview kind c) := by
  refine ⟨quiet_active.gangReview .., ?_, fun m => (turns_blocks m _).gangReview _ _ rfl⟩
  by_cases hj : j = c
  · rw [hj]
    exact (gangReview_kept s c kind).out
  · rw [(gangReview_kept s c kind).others j hj]

/-- A gang is held behind its event exactly when a member blocks it. -/
theorem gangReview_hold {s : State} {c : GangId} (h : s.members c ≠ []) (kind : GangCause) :
    ((s.gangReview kind c).gang c).hold = true ↔ s.blockers c ≠ [] := by
  obtain ⟨m, ms, hm⟩ := List.exists_cons_of_ne_nil h
  rw [gangReview_cons hm, (scan_kept _ c none).2, (checkTurn_kept _ c kind none).2, (checkDwell_kept _ c).2.1]
  by_cases hb : s.blockers c = []
  · rw [(judgeHold_unblocked hb m).1, hb]
    exact ⟨nofun, fun hn => absurd rfl hn⟩
  · rw [(judgeHold_blocked hb m).1]
    exact ⟨fun _ => hb, fun _ => rfl⟩

theorem GangStarted.review {c : GangId} {last : Option Gate} {s : State} (h : GangStarted c last s) (j : GangId) (kind : GangCause) :
    GangStarted c last (s.gangReview kind j) := by
  have hmove := gangReview_unmoved s j c kind
  by_cases hj : c = j
  · subst hj
    by_cases hm : s.members c = []
    · rw [gangReview_nil hm]
      exact h
    · have hkept := gangReview_kept s c kind
      exact ⟨hkept.lastMover.trans h.lastMover, hkept.dwell h.dwell, hkept.out.trans h.out, by
        rw [hmove.blockers]
        exact gangReview_hold hm kind⟩
  · exact h.of_unmoved hmove ((gangReview_kept s j kind).others c hj)

theorem leave_unmoved {s : State} {g : Gate} (hg : (s.chan g).state = .hold .silence) (c : GangId) :
    Unmoved c s (s.enter g .idle) := by
  refine ⟨active_of_sameBut (by decide) (enter_sameBut s g .idle), by rw [gang_of_sameBut (by decide) (enter_sameBut s g .idle)],
    fun m => ?_⟩
  rw [enter_chan]
  split
  · next e =>
    rw [e, hg]
    rfl
  · rfl

theorem setChan_unmoved {s : State} {g : Gate} {x : Channel} (hx : x.state = (s.chan g).state) (c : GangId) :
    Unmoved c s (s.setChan g x) := by
  refine ⟨rfl, rfl, fun m => ?_⟩
  rw [chan_setChan]
  split
  · next e => rw [hx, e]
  · rfl

theorem settles_started (c : GangId) (last : Option Gate) : Settles (GangStarted c last) where
  review _ _ h := h.review _ _
  judge s g h := h.of_unmoved ⟨quiet_active.judge .., by rw [judge_gang], fun m => (turns_blocks m _).judge _ rfl⟩ (judge_gang s g c)
  notice s kind subject d v h := h.of_unmoved
    ⟨notify_active .., by rw [gang_notify], fun m => by rw [chan_notify]⟩ (gang_notify s kind subject d v c)
  leave s g hg h := h.of_unmoved (leave_unmoved hg c) (gang_of_sameBut (by decide) (enter_sameBut s g .idle) c)
  unmark s g h := h.of_unmoved (setChan_unmoved (x := { s.chan g with silencePending := false }) rfl c) rfl
  turn s g _ h := h.of_unmoved (setChan_unmoved (x := { s.chan g with source := .dispatch }) rfl c) rfl
  silence s k r h := h.of_unmoved ⟨rfl, rfl, fun _ => rfl⟩ rfl
  armed s a h := h.of_unmoved ⟨rfl, rfl, fun _ => rfl⟩ rfl

end Sys2Proof.Machine
end

section
/-! COMMIT (R163): PENDING becomes ACTIVE, and each block takes its new entries. -/

namespace Sys2Proof.Machine

/-! ### Gangs at a COMMIT -/

/-- Folding over different names: what one name establishes from what the names before it keep, and those behind it keep. -/
theorem forEach_turn {α : Type} {f : α → State → State} {P Q : State → Prop} {x : α} {xs : List α} (hx : x ∈ xs) (nd : xs.Nodup)
    (hbefore : ∀ a s, a ≠ x → P s → P (f a s)) (hset : ∀ s, P s → Q (f x s)) (hafter : ∀ a s, a ≠ x → Q s → Q (f a s)) {s : State}
    (h : P s) : Q (forEach xs f s) := by
  induction xs generalizing s with
  | nil => exact absurd hx List.not_mem_nil
  | cons y ys ih =>
    obtain ⟨hy, nd'⟩ := List.nodup_cons.mp nd
    by_cases he : y = x
    · subst he
      have hrest : ∀ (zs : List α), y ∉ zs → ∀ u, Q u → Q (forEach zs f u) := fun zs => by
        induction zs with
        | nil => exact fun _ u hu => hu
        | cons z zs ihz =>
          intro hn u hu
          rw [List.mem_cons, not_or] at hn
          exact ihz hn.2 _ (hafter z u (Ne.symm hn.1) hu)
      exact hrest ys hy _ (hset _ h)
    · rcases List.mem_cons.mp hx with hx | hx
      · exact absurd hx.symm he
      · exact ih hx nd' (hbefore y s he h)

theorem dissolveGang_sameBut (s : State) (ms : List Gate) (c : GangId) : SameBut [.chans, .portF] s (s.dissolveGang ms c) := by
  unfold State.dissolveGang
  refine SameBut.trans ?_ (freeMembers_sameBut ms _)
  split
  · exact (leaveWaits_sameBut _ _).mono (by decide)
  · exact SameBut.refl _ _

/-- A gang present before and after with the members it had keeps its record (R92). -/
theorem commitGang_same {s : State} {old : Plan} {c : GangId} (hw : (old.gangs.get c).isPresent = true)
    (hn : (s.gangEntry c).isPresent = true) (hm : old.membersOf c = s.members c) : s.commitGang old c = s := by
  unfold State.commitGang
  simp only
  rw [if_pos (by rw [hw, hn]; rfl), if_pos hm]

/-- A gang newly present, or with other members, starts anew. -/
theorem commitGang_starts {s : State} {old : Plan} {c : GangId} (hn : (s.gangEntry c).isPresent = true)
    (h : (old.gangs.get c).isPresent = false ∨ old.membersOf c ≠ s.members c) :
    ∃ u, SameBut [.chans, .portF] s u ∧ s.commitGang old c = u.startGang c := by
  unfold State.commitGang
  simp only
  cases hw : (old.gangs.get c).isPresent with
  | true =>
    have hm := h.resolve_left (by rw [hw]; decide)
    rw [if_pos (by rw [hn]; rfl), if_neg hm]
    exact ⟨_, dissolveGang_sameBut _ _ _, rfl⟩
  | false =>
    rw [Bool.false_and, if_neg (by decide), if_pos hn]
    exact ⟨s, SameBut.refl _ _, rfl⟩

/-- A gang no longer present holds no record. -/
theorem commitGang_ends {s : State} {old : Plan} {c : GangId} (hw : (old.gangs.get c).isPresent = true)
    (hn : (s.gangEntry c).isPresent = false) :
    s.commitGang old c = (s.dissolveGang (old.membersOf c) c).setGang c Gang.absent := by
  unfold State.commitGang
  simp only
  rw [if_neg (by rw [hn, Bool.and_false]; decide), if_neg (by rw [hn]; decide), if_pos hw]

/-- What a COMMIT does to a gang: nothing, its start, or its end. -/
theorem commitGang_cases (s : State) (old : Plan) (c : GangId) : s.commitGang old c = s
    ∨ (∃ ms, s.commitGang old c = (s.dissolveGang ms c).startGang c) ∨ s.commitGang old c = s.startGang c
    ∨ ∃ ms, s.commitGang old c = (s.dissolveGang ms c).setGang c Gang.absent := by
  unfold State.commitGang
  simp only
  split
  · split
    · exact .inl rfl
    · exact .inr (.inl ⟨_, rfl⟩)
  · split
    · exact .inr (.inr (.inl rfl))
    · split
      · exact .inr (.inr (.inr ⟨_, rfl⟩))
      · exact .inl rfl

/-- The start of a gang: its record reset, and held when a member blocks it. -/
theorem startGang_cases (s : State) (c : GangId) :
    s.startGang c = s.setGang c (Gang.resetWith (s.members c) false)
      ∧ (s.setGang c (Gang.resetWith (s.members c) false)).blockers c = []
    ∨ s.startGang c = (s.setGang c (Gang.resetWith (s.members c) false)).heldState c
      ∧ (s.setGang c (Gang.resetWith (s.members c) false)).blockers c ≠ [] := by
  unfold State.startGang
  simp only
  split
  · next b bs hb => exact .inr ⟨becomeHeld_quiet .., by rw [hb]; nofun⟩
  · next hb => exact .inl ⟨rfl, hb⟩

theorem startGang_gang_ne {s : State} {c j : GangId} (h : j ≠ c) : (s.startGang c).gang j = s.gang j := by
  rcases startGang_cases s c with ⟨he, _⟩ | ⟨he, _⟩ <;> rw [he]
  · rw [gang_setGang, if_neg h]
  · rw [heldState_gang, if_neg h, gang_setGang, if_neg h]

theorem commitGang_gang_ne {s : State} {old : Plan} {c j : GangId} (h : j ≠ c) : (s.commitGang old c).gang j = s.gang j := by
  rcases commitGang_cases s old c with he | ⟨ms, he⟩ | he | ⟨ms, he⟩ <;> rw [he]
  · exact (startGang_gang_ne h).trans (gang_of_sameBut (by decide) (dissolveGang_sameBut _ _ _) j)
  · exact startGang_gang_ne h
  · rw [gang_setGang, if_neg h]
    exact gang_of_sameBut (by decide) (dissolveGang_sameBut _ _ _) j

/-- A gang that starts shows a reset record. -/
theorem startGang_started (s : State) (c : GangId) : GangStarted c (s.members c).getLast? (s.startGang c) := by
  have hgang : (s.setGang c (Gang.resetWith (s.members c) false)).gang c = Gang.resetWith (s.members c) false := gang_setGang_self ..
  rcases startGang_cases s c with ⟨he, hb⟩ | ⟨he, hb⟩ <;> rw [he]
  · refine ⟨by rw [hgang]; rfl, by rw [hgang]; rfl, by rw [hgang]; rfl, ?_⟩
    rw [hgang, hb]
    exact ⟨nofun, fun h => absurd rfl h⟩
  · generalize s.setGang c (Gang.resetWith (s.members c) false) = u at *
    have hrec : (u.heldState c).gang c = u.heldRecord c := (heldState_gang ..).trans (if_pos rfl)
    have hout : ((u.heldState c).gang c).out = (u.gang c).out := by rw [hrec]; rfl
    have hactive : (u.heldState c).active = u.active := by
      rw [active_of_sameBut (by decide) (heldState_sameBut u c)]
      rfl
    have hblock : (u.heldState c).blockers c = u.blockers c :=
      blockers_congr hactive hout fun m => by
        have := (turns_blocks m _).becomeHeld (s := u) c m true rfl
        exact this
    refine ⟨by rw [hrec]; exact congrArg Gang.lastMover hgang, by rw [hrec]; rfl, by rw [hrec]; exact congrArg Gang.out hgang, ?_⟩
    rw [hblock, hrec]
    exact ⟨fun _ => hb, fun _ => rfl⟩

theorem commitGang_active (s : State) (old : Plan) (c : GangId) : (s.commitGang old c).active = s.active :=
  quiet_active.commitGang ..

theorem commitGang_unmoved {s : State} {old : Plan} {c j : GangId} (h : j ≠ c) : Unmoved j s (s.commitGang old c) :=
  ⟨commitGang_active .., by rw [commitGang_gang_ne h], fun m => (turns_blocks m _).commitGang old c rfl⟩

/-- A gang with new members starts anew, and stays so behind the other gangs' part of the COMMIT. -/
theorem commitGangs_started {s : State} {old : Plan} {c : GangId} (hn : (s.gangEntry c).isPresent = true)
    (h : (old.gangs.get c).isPresent = false ∨ old.membersOf c ≠ s.members c) :
    GangStarted c (s.members c).getLast? (s.commitGangs old) := by
  refine forEach_turn (P := fun t => t.active = s.active) (mem_allFin c) (allFin_nodup 8)
    (fun a t _ ht => (commitGang_active ..).trans ht) (fun t ht => ?_) (fun a t ha ht => ?_) rfl
  · have hmem : t.members c = s.members c := by unfold State.members; rw [ht]
    obtain ⟨u, hu, he⟩ := commitGang_starts (s := t) (old := old) (c := c)
      (by unfold State.gangEntry at hn ⊢; rw [ht]; exact hn) (by rw [hmem]; exact h)
    rw [he, ← hmem, show t.members c = u.members c by unfold State.members; rw [active_of_sameBut (by decide) hu]]
    exact startGang_started u c
  · exact ht.of_unmoved (commitGang_unmoved (Ne.symm ha)) (commitGang_gang_ne (Ne.symm ha))

/-- A property of one gang's record and the plan settles when that gang's event keeps it. -/
theorem Settles.of_record {P : State → Prop} (c : GangId)
    (hsame : ∀ s t : State, t.gang c = s.gang c → t.active = s.active → P s → P t)
    (hreview : ∀ s, P s → P (s.gangReview .other c)) : Settles P where
  review s j h := by
    by_cases hj : c = j
    · rw [← hj]
      exact hreview s h
    · exact hsame _ _ ((gangReview_kept s j .other).others c hj) (quiet_active.gangReview ..) h
  judge s g h := hsame _ _ (judge_gang s g c) (quiet_active.judge ..) h
  notice s kind subject d v h := hsame _ _ (gang_notify s kind subject d v c) (notify_active ..) h
  leave s g _ h := hsame _ _ (gang_of_sameBut (by decide) (enter_sameBut s g .idle) c)
    (active_of_sameBut (by decide) (enter_sameBut s g .idle)) h
  unmark s _ h := hsame s _ rfl rfl h
  turn s _ _ h := hsame s _ rfl rfl h
  silence s _ _ h := hsame s _ rfl rfl h
  armed s _ h := hsame s _ rfl rfl h

/-- The last mover and the out marks of a gang that stays. -/
theorem planTail_marks {s : State} {old : Plan} {c : GangId} (hw : (old.gangs.get c).isPresent = true)
    (hn : (s.gangEntry c).isPresent = true) (hm : old.membersOf c = s.members c) :
    ((s.planTail old).gang c).lastMover = (s.gang c).lastMover ∧ ((s.planTail old).gang c).out = (s.gang c).out := by
  have q : Settles fun t => (t.gang c).lastMover = (s.gang c).lastMover ∧ (t.gang c).out = (s.gang c).out :=
    .of_record c (fun t u hg _ h => by rw [hg]; exact h) fun t h =>
      ⟨(gangReview_kept t c .other).lastMover.trans h.1, (gangReview_kept t c .other).out.trans h.2⟩
  have hgang : (s.commitGangs old).gang c = s.gang c ∧ (s.commitGangs old).active = s.active := by
    refine forEach_preserves (P := fun t => t.gang c = s.gang c ∧ t.active = s.active) (fun a t ht => ?_) _ _ ⟨rfl, rfl⟩
    refine ⟨?_, (commitGang_active ..).trans ht.2⟩
    by_cases ha : c = a
    · subst ha
      rw [commitGang_same hw (by unfold State.gangEntry at hn ⊢; rw [ht.2]; exact hn) (by unfold State.members at hm ⊢; rw [ht.2, hm])]
      exact ht.1
    · rw [commitGang_gang_ne ha]
      exact ht.1
  rw [planTail_eq]
  exact q.planRest old ⟨by rw [hgang.1], by rw [hgang.1]⟩

theorem members_of_absent {s : State} {c : GangId} (h : (s.gangEntry c).isPresent = false) : s.members c = [] := by
  unfold State.members Plan.membersOf
  exact if_neg (by rw [show (s.active.gangs.get c).isPresent = false from h]; decide)

/-- A gang no longer present holds the record of an absent gang behind a COMMIT. -/
theorem planTail_absent {s : State} {old : Plan} {c : GangId} (hw : (old.gangs.get c).isPresent = true)
    (hn : (s.gangEntry c).isPresent = false) : (s.planTail old).gang c = Gang.absent := by
  have hkeep : ∀ t u : State, u.gang c = t.gang c → u.active = t.active → t.gang c = Gang.absent ∧ (t.gangEntry c).isPresent = false →
      u.gang c = Gang.absent ∧ (u.gangEntry c).isPresent = false := fun t u hg ha h => by
    unfold State.gangEntry at h ⊢
    rw [hg, ha]
    exact h
  have q : Settles fun t => t.gang c = Gang.absent ∧ (t.gangEntry c).isPresent = false :=
    .of_record c hkeep fun t h => by rw [gangReview_nil (members_of_absent h.2)]; exact h
  rw [planTail_eq]
  refine (q.planRest old (forEach_turn (P := fun t => t.active = s.active)
    (Q := fun t => t.gang c = Gang.absent ∧ (t.gangEntry c).isPresent = false) (mem_allFin c) (allFin_nodup 8)
    (fun a t _ ht => (commitGang_active ..).trans ht) (fun t ht => ?_) (fun a t ha ht => ?_) rfl)).1
  · have hact : (t.gangEntry c).isPresent = false := by unfold State.gangEntry at hn ⊢; rw [ht]; exact hn
    refine ⟨?_, by unfold State.gangEntry at hact ⊢; rw [commitGang_active]; exact hact⟩
    rw [commitGang_ends hw hact, gang_setGang_self]
  · exact hkeep t _ (commitGang_gang_ne (Ne.symm ha)) (commitGang_active ..) ht

/-! ### A former member of a gang that ends -/

/-- A gate that no gang of ACTIVE names, out of a gang's hold. -/
structure Ungrouped (g : Gate) (s : State) : Prop where
  gang : s.active.gangOf g = none
  state : (s.chan g).state ≠ .hold .gang

theorem not_mem_of_gangOf_none {p : Plan} {g : Gate} (h : p.gangOf g = none) (c : GangId) : g ∉ p.membersOf c := fun hm => by
  unfold Plan.gangOf at h
  have := List.find?_eq_none.mp h c (mem_allFin c)
  exact this (List.contains_iff_mem.mpr hm)

theorem heldState_ungrouped {s : State} {g : Gate} (h : Ungrouped g s) (c : GangId) :
    ((s.heldState c).chan g).state ≠ .hold .gang := by
  rw [heldState_chan, if_neg fun hm => not_mem_of_gangOf_none h.gang c (mem_holdable.mp hm).1]
  split
  · nofun
  · exact h.state

theorem judgeHold_ungrouped {s : State} {g : Gate} (h : Ungrouped g s) (c : GangId) (m : Gate) :
    ((s.judgeHold c m).chan g).state ≠ .hold .gang := by
  by_cases hb : s.blockers c = []
  · rw [(judgeHold_unblocked hb m).2 g h.state]
    exact h.state
  · cases hh : (s.gang c).hold with
    | true =>
      rw [judgeHold_holds hh hb, holdAll_chan, if_neg fun hm => not_mem_of_gangOf_none h.gang c (mem_holdable.mp hm).1]
      exact h.state
    | false =>
      obtain ⟨b, bs, hbs⟩ := List.exists_cons_of_ne_nil hb
      rw [judgeHold_becomes hh hbs, becomeHeld_loud, chan_notify]
      exact heldState_ungrouped h c

theorem gangReview_ungrouped {s : State} {g : Gate} (h : Ungrouped g s) (kind : GangCause) (c : GangId) :
    Ungrouped g (s.gangReview kind c) := by
  refine ⟨by rw [quiet_active.gangReview]; exact h.gang, ?_⟩
  cases hm : s.members c with
  | nil =>
    rw [gangReview_nil hm]
    exact h.state
  | cons m ms =>
    rw [gangReview_cons hm]
    have hchan : (((s.judgeHold c m).checkDwell c).checkTurn c kind none).chan g = (s.judgeHold c m).chan g :=
      (chan_of_sameBut (by decide) (checkTurn_sameBut _ _ _ _) g).trans (chan_of_sameBut (by decide) (checkDwell_sameBut _ _) g)
    rcases scan_chan_cases (((s.judgeHold c m).checkDwell c).checkTurn c kind none) c none g with hk | ⟨_, target, _, hk⟩
    · rw [hk, hchan]
      exact judgeHold_ungrouped h c m
    · rw [hk]
      nofun

theorem settles_ungrouped (g : Gate) : Settles (Ungrouped g) where
  review _ c h := gangReview_ungrouped h _ c
  judge s i h := by
    refine ⟨by rw [quiet_active.judge]; exact h.gang, ?_⟩
    rcases judge_chan_cases s g i with hk | ⟨_, target, _, hk⟩ <;> rw [hk]
    · exact h.state
    · nofun
  notice s kind subject d v h := ⟨by rw [notify_active]; exact h.gang, by rw [chan_notify]; exact h.state⟩
  leave s i _ h := by
    refine ⟨by rw [active_of_sameBut (by decide) (enter_sameBut s i .idle)]; exact h.gang, ?_⟩
    rw [enter_chan]
    split
    · nofun
    · exact h.state
  unmark s i h := by
    refine ⟨h.gang, ?_⟩
    rw [chan_setChan]
    split
    · next e => rw [← e]; exact h.state
    · exact h.state
  turn s i _ h := by
    refine ⟨h.gang, ?_⟩
    rw [chan_setChan]
    split
    · next e => rw [← e]; exact h.state
    · exact h.state
  silence _ _ _ h := ⟨h.gang, h.state⟩
  armed _ _ h := ⟨h.gang, h.state⟩

theorem dissolveGang_chan (s : State) (ms : List Gate) (c : GangId) (g : Gate) : (s.dissolveGang ms c).chan g
    = if g ∈ ms ∧ (s.chan g).state = .hold .gang then (s.chan g).inState (s.afterGangHold g) else s.chan g := by
  unfold State.dissolveGang
  simp only
  rw [freeMembers_chan]
  split <;> rfl

theorem afterGangHold_ne (s : State) (g : Gate) : s.afterGangHold g ≠ .hold .gang := by
  unfold State.afterGangHold
  split <;> nofun

theorem dissolveGang_ungrouped {s : State} {g : Gate} (hg : s.active.gangOf g = none) {ms : List Gate} (c : GangId)
    (h : g ∈ ms ∨ (s.chan g).state ≠ .hold .gang) : Ungrouped g (s.dissolveGang ms c) := by
  refine ⟨by rw [active_of_sameBut (by decide) (dissolveGang_sameBut s ms c)]; exact hg, ?_⟩
  rw [dissolveGang_chan]
  split
  · exact afterGangHold_ne s g
  · next hn => exact fun he => hn ⟨h.resolve_right fun hr => hr he, he⟩

theorem startGang_ungrouped {s : State} {g : Gate} (h : Ungrouped g s) (c : GangId) : Ungrouped g (s.startGang c) := by
  have hu : Ungrouped g (s.setGang c (Gang.resetWith (s.members c) false)) := ⟨h.gang, h.state⟩
  rcases startGang_cases s c with ⟨he, _⟩ | ⟨he, _⟩ <;> rw [he]
  · exact hu
  · refine ⟨?_, heldState_ungrouped hu c⟩
    rw [active_of_sameBut (by decide) (heldState_sameBut (s.setGang c (Gang.resetWith (s.members c) false)) c)]
    exact hu.gang

theorem commitGang_ungrouped {s : State} {g : Gate} (h : Ungrouped g s) (old : Plan) (c : GangId) :
    Ungrouped g (s.commitGang old c) := by
  have hd := fun ms => dissolveGang_ungrouped (ms := ms) h.gang c (.inr h.state)
  rcases commitGang_cases s old c with he | ⟨ms, he⟩ | he | ⟨ms, he⟩ <;> rw [he]
  · exact h
  · exact startGang_ungrouped (hd ms) c
  · exact startGang_ungrouped h c
  · exact ⟨(hd ms).gang, (hd ms).state⟩

/-- No former member of a gang that ends is left in its hold, unless another gang names it. -/
theorem planTail_ungrouped {s : State} {old : Plan} {c : GangId} {g : Gate} (hw : (old.gangs.get c).isPresent = true)
    (hn : (s.gangEntry c).isPresent = false) (hg : g ∈ old.membersOf c) (hnone : s.active.gangOf g = none) :
    ((s.planTail old).chan g).state ≠ .hold .gang := by
  rw [planTail_eq]
  refine ((settles_ungrouped g).planRest old (forEach_turn (P := fun t => t.active = s.active) (Q := Ungrouped g)
    (mem_allFin c) (allFin_nodup 8) (fun a t _ ht => (commitGang_active ..).trans ht) (fun t ht => ?_)
    (fun a t _ ht => commitGang_ungrouped ht old a) rfl)).state
  rw [commitGang_ends hw (by unfold State.gangEntry at hn ⊢; rw [ht]; exact hn)]
  have hd := dissolveGang_ungrouped (s := t) (g := g) (by rw [ht]; exact hnone) (ms := old.membersOf c) c (.inl hg)
  exact ⟨hd.gang, hd.state⟩

/-! ### The channels, stations and reaches -/

/-- The channels, stations and reaches at a COMMIT. -/
def State.commitHead (s : State) (old : Plan) : State :=
  forEach (allFin 5) (fun k s => s.commitReach old k) ((forEach (allFin 48) (fun g s => s.commitChannel old g) s).commitStations old)

theorem takePlan_head_tail (s : State) (old : Plan) : s.takePlan old = (s.commitHead old).planTail old := rfl

theorem commitChannel_sameBut (s : State) (old : Plan) (g : Gate) : SameBut [.chans, .portF, .report] s (s.commitChannel old g) := by
  unfold State.commitChannel
  split
  · exact SameBut.refl _ _
  · refine SameBut.trans (((setChan_sameBut s g ((s.chan g).atCommit (old.binding g) (s.active.binding g))).mono (by decide)).trans ((leaveWaits_sameBut _ g).mono (by decide))) ?_
    simp only
    split
    · exact (endTrace_sameBut _ _).mono (by decide)
    · exact SameBut.refl _ _

theorem commitStations_sameBut (s : State) (old : Plan) : SameBut [.stations] s (s.commitStations old) := by
  intro x hx
  cases x <;> first | exact ⟨rfl, rfl⟩ | rfl | simp at hx

theorem commitReach_sameBut (s : State) (old : Plan) (k : ReachId) : SameBut [.reaches, .portD, .report] s (s.commitReach old k) := by
  unfold State.commitReach
  simp only
  have hset := fun r => (setReach_sameBut s k r).mono (qs := [.reaches, .portD, .report]) (by decide)
  split
  · split
    · exact SameBut.refl _ _
    · split
      · exact hset _
      · exact reseed_sameBut _ _ _ _
  · split
    · exact hset _
    · split
      · exact hset _
      · exact SameBut.refl _ _

theorem commitHead_sameBut (s : State) (old : Plan) :
    SameBut [.chans, .portF, .report, .stations, .reaches, .portD] s (s.commitHead old) :=
  ((forEach_sameBut (fun g t => commitChannel_sameBut t old g) (allFin 48) s).mono (by decide)).trans
    (((commitStations_sameBut _ old).mono (by decide)).trans
      ((forEach_sameBut (fun k t => commitReach_sameBut t old k) (allFin 5) _).mono (by decide)))

theorem commitStations_station (s : State) (old : Plan) (k : StationId) :
    ((forEach (allFin 48) (fun g s => s.commitChannel old g) s).commitStations old).station k
      = (s.station k).atCommit (old.stations.get k) (s.stationEntry k) := by
  have h := forEach_sameBut (fun g t => commitChannel_sameBut t old g) (allFin 48) s
  refine (Tab.get_gen ..).trans ?_
  rw [station_of_sameBut (by decide) h, stationEntry_of_sameBut (by decide) h]

theorem commitHead_station (s : State) (old : Plan) (k : StationId) :
    (s.commitHead old).station k = (s.station k).atCommit (old.stations.get k) (s.stationEntry k) := by
  rw [← commitStations_station]
  exact station_of_sameBut (by decide) (forEach_sameBut (fun k t => commitReach_sameBut t old k) (allFin 5) _) k

theorem commitHead_reach_station (s : State) (old : Plan) (k : ReachId) : (s.commitHead old).reach k
    = (s.reach k).atCommit (old.reaches.get k) (s.reachEntry k) ((s.commitHead old).station (upperOf k)).qOut := by
  rw [commitHead_station, ← commitStations_station]
  exact commitHead_reach s old k

/-- A station that stays: its stage and storage, and the window of its new entry. -/
theorem station_atCommit_stays {r : Station} {old new : StationEntry} (ho : old.isPresent = true) (hn : new.isPresent = true) :
    (r.atCommit old new).stage = r.stage ∧ (r.atCommit old new).storage = r.storage
      ∧ ((r.atCommit old new).qmin, (r.atCommit old new).qmax) = windowFor new r.stage r.arrival r.qLocal := by
  unfold Station.atCommit
  rw [if_pos (by rw [ho, hn]; rfl)]
  simp only
  split <;> split <;> split <;> exact ⟨rfl, rfl, rfl⟩

theorem station_atCommit_new {r : Station} {old new : StationEntry} (ho : old.isPresent = false) (hn : new.isPresent = true) :
    r.atCommit old new = Station.resetWith new.qminEnv new.qmaxChan := by
  unfold Station.atCommit Station.resetFor
  rw [if_neg (by rw [ho, Bool.false_and]; decide), if_pos (by rw [hn, Bool.or_true]), if_pos hn]

section reaches

variable {r : Reach} {old new : ReachEntry} (flow : Nat)

theorem reach_atCommit_same (ho : old.isPresent = true) (hn : new.isPresent = true) (h : old.tau = new.tau) :
    r.atCommit old new flow = r := by
  unfold Reach.atCommit
  rw [if_pos (by rw [ho, hn]; rfl), if_pos h]

theorem reach_atCommit_retimed (ho : old.isPresent = true) (hn : new.isPresent = true) (h : old.tau ≠ new.tau) :
    (r.atCommit old new flow).unseeded = r.unseeded ∧ (r.atCommit old new flow).coarse = r.coarse
      ∧ (r.atCommit old new flow).line = oneParcel (if r.unseeded then 0 else flow) new.tau := by
  unfold Reach.atCommit
  rw [if_pos (by rw [ho, hn]; rfl), if_neg h]
  split
  · exact ⟨rfl, rfl, rfl⟩
  · next hu => exact ⟨(Bool.eq_false_iff.mpr hu).symm, rfl, rfl⟩

theorem reach_atCommit_new (ho : old.isPresent = false) (hn : new.isPresent = true) :
    r.atCommit old new flow = Reach.resetWith new.tau := by
  unfold Reach.atCommit
  rw [if_neg (by rw [ho, Bool.false_and]; decide), if_pos hn]

theorem reach_atCommit_gone (ho : old.isPresent = true) (hn : new.isPresent = false) : r.atCommit old new flow = Reach.absent := by
  unfold Reach.atCommit
  rw [if_neg (by rw [hn, Bool.and_false]; decide), if_neg (by rw [hn]; decide), if_pos ho]

end reaches

theorem commitHead_settings (s : State) (old : Plan) : (s.commitHead old).settings = s.settings := by
  have hchan : ∀ g (t : State), (t.commitChannel old g).settings = t.settings := fun g t => by
    unfold State.commitChannel
    split
    · rfl
    · simp only
      split
      · exact endTrace_settings ..
      · rfl
  have hreach : ∀ k (t : State), (t.commitReach old k).settings = t.settings := fun k t => by
    unfold State.commitReach State.reseed
    simp only
    split
    · split
      · rfl
      · split
        · rfl
        · exact notify_settings ..
    · split
      · rfl
      · split <;> rfl
  exact (forEach_keeps (π := State.settings) hreach _ _).trans (forEach_keeps (π := State.settings) hchan _ _)

theorem planTail_settings (s : State) (old : Plan) : (s.planTail old).settings = s.settings := by
  obtain ⟨q, q'⟩ := settles_settings s.settings
  rw [planTail_eq]
  exact q'.planRest old (q.commitGangs old rfl)

/-! ### The channels at a COMMIT -/

/-- A channel that the channels' part of a COMMIT leaves at rest stays so. -/
theorem planTail_resting {s : State} {g : Gate} (old : Plan) (hst : (s.chan g).state = .wait ∨ (s.chan g).state = .unbound)
    (hp : (s.chan g).silencePending = false) (hs : (s.chan g).source = .none) : (s.planTail old).chan g = s.chan g := by
  obtain ⟨q, q'⟩ := settles_resting hst hp hs
  rw [planTail_eq]
  exact q'.planRest old (q.commitGangs old rfl)

theorem binding_some {p : Plan} {g : Gate} (h : p.bound g = true) : ∃ b, p.binding g = some b := by
  unfold Plan.binding
  rw [if_pos h]
  exact ⟨_, rfl⟩

section channels

variable {s : State} {old : Plan} {g : Gate}

theorem takePlan_chan_bound (ho : old.bound g = false) (hn : s.active.bound g = true) :
    (s.takePlan old).chan g = { Channel.resetAs .wait with tag := (s.chan g).tag } := by
  obtain ⟨b, hb⟩ := binding_some hn
  have hold : old.binding g = none := (binding_none ..).mpr ho
  have hc : (s.commitHead old).chan g = { Channel.resetAs .wait with tag := (s.chan g).tag } := by
    refine (commitHead_chan s old g).trans ?_
    rw [hold, hb, if_neg nofun]
    rfl
  rw [takePlan_head_tail, planTail_resting old (by rw [hc]; exact .inl rfl) (by rw [hc]; rfl) (by rw [hc]; rfl), hc]

theorem takePlan_chan_unbound (ho : old.bound g = true) (hn : s.active.bound g = false) :
    (s.takePlan old).chan g = { Channel.resetAs .unbound with tag := (s.chan g).tag } := by
  obtain ⟨b, hb⟩ := binding_some ho
  have hnew : s.active.binding g = none := (binding_none ..).mpr hn
  have hc : (s.commitHead old).chan g = { Channel.resetAs .unbound with tag := (s.chan g).tag } := by
    refine (commitHead_chan s old g).trans ?_
    rw [hnew, hb, if_neg nofun]
    rfl
  rw [takePlan_head_tail, planTail_resting old (by rw [hc]; exact .inr rfl) (by rw [hc]; rfl) (by rw [hc]; rfl), hc]

theorem takePlan_chan_rebound (ho : old.bound g = true) (hn : s.active.bound g = true) (hne : old.binding g ≠ s.active.binding g) :
    (s.takePlan old).chan g
      = { s.chan g with state := .wait, governed := none, source := .none, clamp := .none, silencePending := false } := by
  obtain ⟨a, ha⟩ := binding_some ho
  obtain ⟨b, hb⟩ := binding_some hn
  have hc : (s.commitHead old).chan g
      = { s.chan g with state := .wait, governed := none, source := .none, clamp := .none, silencePending := false } := by
    refine (commitHead_chan s old g).trans ?_
    rw [if_neg hne, ha, hb]
    exact if_neg fun e => hne (by rw [ha, hb, e])
  rw [takePlan_head_tail, planTail_resting old (by rw [hc]; exact .inl rfl) (by rw [hc]) (by rw [hc]), hc]

theorem takePlan_readings (he : old.binding g = s.active.binding g) : (s.takePlan old).readings g = s.readings g := by
  rw [takePlan_head_tail, planTail_readings]
  have hc : (s.commitHead old).chan g = s.chan g := (commitHead_chan s old g).trans (if_pos he)
  unfold State.readings
  rw [hc]

end channels

/-- A silence record at a COMMIT, by the presence of its station and the count of its new entry. -/
theorem silence_atCommit_eq (r : SilenceRec) (was : Bool) (e : StationEntry) : r.atCommit was e
    = if e.isPresent = true then
        if was = true ∧ 0 < e.silenceCount then
          { level := r.level, timer := if r.level = .l2 then none else if 0 < e.silenceCount then some e.silencePeriod else none }
        else { level := .l0, timer := if 0 < e.silenceCount then some e.silencePeriod else none }
      else if was = true then { level := .l0, timer := none } else r := by
  unfold SilenceRec.atCommit silenceReset restartedTimer
  cases e.isPresent <;> cases was <;> by_cases h : 0 < e.silenceCount <;> simp [h]

/-! ### The request -/

/-- PENDING made ACTIVE. -/
def State.swapped (s : State) : State := s.setStore { s.store with active := s.store.planPending }

/-- The new plan on its way to the retained copy (R163). -/
def State.stored (s : State) (new : Plan) : State :=
  s.setStore { s.store with planPending := new, retained := { plan := new, agrees := false }, writing := true }

theorem setStore_sameBut (s : State) (r : PlanStore) : SameBut [.store] s (s.setStore r) := by
  intro x hx
  cases x <;> first | exact ⟨rfl, rfl⟩ | rfl | simp at hx

theorem commitPlan_eq (s : State) : s.commitPlan = ((s.swapped.takePlan s.active).stored s.store.planPending).notify .planCommitted
    .none s.active.number s.store.planPending.number := rfl

theorem takePlan_sameBut (s : State) (old : Plan) : SameBut [.armed, .chans, .stations, .reaches, .gangs, .silence, .portF, .portD,
    .report] s (s.takePlan old) :=
  ((commitHead_sameBut s old).mono (by decide)).trans ((planTail_sameBut _ old).mono (by decide))

theorem commitPlan_outside (s : State) : s.commitPlan.outside = s.outside := still_outside.commitPlan s

theorem handleCommit_passes {s : State} (hr : s.store.run = none) (hw : s.store.writing = false)
    (hf : s.store.planPending.fault = none) (hb : s.commitBlocker = none) :
    s.handleCommit = s.commitPlan.grant (beBytes 2 s.store.planPending.number) := by
  unfold State.handleCommit
  rw [hr, if_neg (by decide), hw, if_neg (by decide), hf]
  simp only
  rw [hb]

theorem notify_gap_or (s : State) (kind : NoticeKind) (subject : Subject) (d v : Nat) :
    (s.notify kind subject d v).report.gapMark = true ∨ (s.notify kind subject d v).portD.own = s.portD.own
      ++ [.notice { kind := kind, subject := subject, time := s.now, detail := d, value := v, gap := s.report.gapMark }] := by
  unfold State.notify
  split
  · exact .inr rfl
  · exact .inl rfl

theorem endTrace_gapMark (s : State) (cause : EndCause) : (s.endTrace cause).report.gapMark = s.report.gapMark := by
  unfold State.endTrace
  split <;> rfl

theorem finish_gapMark (s : State) : s.finish.report.gapMark = s.report.gapMark := by
  unfold State.finish
  simp only
  split
  · rfl
  · split
    case h_6 => split <;> first | rfl | exact endTrace_gapMark ..
    all_goals first | rfl | exact endTrace_gapMark ..

/-- What a COMMIT that is carried out leaves, against the state in which its blocks took the plan. -/
structure Committed (s t : State) (p : List Byte) : Prop where
  rest : SameBut [.store, .portF, .portD, .report] (s.reserve.swapped.takePlan s.active) t
  store : t.store = { active := s.store.planPending, planPending := s.store.planPending, run := none,
                      retained := { plan := s.store.planPending, agrees := false }, writing := true }
  settings : t.settings = s.settings
  counts : t.portD.counts = s.portD.counts ∧ t.portF.counts = s.portF.counts
  notice : t.report.gapMark = true ∨ ∃ earlier gap, t.portD.own = earlier
    ++ [.notice ⟨.planCommitted, .none, s.now, s.active.number, s.store.planPending.number, gap⟩,
        replyTo p .done (beBytes 2 s.store.planPending.number)]

theorem swapped_takePlan_store (s : State) (old : Plan) : (s.swapped.takePlan old).store = { s.store with active := s.store.planPending } :=
  takePlan_sameBut s.swapped old .store (by decide)

/-- A COMMIT that passes R162, answered. -/
theorem exec_commit {s : State} {p : List Byte} (hs : s.ready) (ha : s.asks p .commit) (hr : s.store.run = none)
    (hw : s.store.writing = false) (hf : s.store.planPending.fault = none) (hb : s.commitBlocker = none) :
    ∃ t, exec .commit s = .next t ∧ Replied s t p .done (beBytes 2 s.store.planPending.number) ∧ Committed s t p := by
  have hh : s.reserve.handle .commit (reqArgs p) = s.reserve.commitPlan.grant (beBytes 2 s.store.planPending.number) :=
    handleCommit_passes (s := s.reserve) hr hw hf hb
  obtain ⟨hrow, hrep⟩ := row_of_answer (row := fun r => r == .commit) hs ha rfl nofun nofun hh
  have hout := commitPlan_outside s.reserve
  have hplace := placeReply_sameBut s.reserve.commitPlan p .done (beBytes 2 s.store.planPending.number)
  have hfin := finish_sameBut (s.reserve.commitPlan.placeReply p .done (beBytes 2 s.store.planPending.number))
  have htake := takePlan_sameBut s.reserve.swapped s.active
  have hnow : ((s.reserve.swapped.takePlan s.active).stored s.store.planPending).now = s.now :=
    congrArg Clock.plantTime (htake .clock (by decide)).1
  have hnote : SameBut [.portD, .report] ((s.reserve.swapped.takePlan s.active).stored s.store.planPending) s.reserve.commitPlan :=
    notify_sameBut _ _ _ _ _
  refine ⟨_, hrow, hrep, ⟨?_, ?_, ?_, ⟨?_, ?_⟩, ?_⟩⟩
  · exact ((setStore_sameBut _ _).mono (by decide)).trans ((hnote.mono (by decide)).trans
      ((hplace.mono (by decide)).trans (hfin.mono (by decide))))
  · rw [show State.store (State.finish _) = State.store _ from hfin .store (by decide), hplace .store (by decide),
      hnote .store (by decide)]
    show { (s.reserve.swapped.takePlan s.active).store with
      planPending := s.store.planPending, retained := { plan := s.store.planPending, agrees := false }, writing := true } = _
    rw [swapped_takePlan_store]
    exact congrArg (fun r => (⟨s.store.planPending, s.store.planPending, r, ⟨s.store.planPending, false⟩, true⟩ : PlanStore)) hr
  · rw [finish_settings, settings_of_sameBut (by decide) hplace, commitPlan_eq, notify_settings]
    show (s.reserve.swapped.takePlan s.active).settings = _
    rw [takePlan_head_tail, planTail_settings, commitHead_settings]
    rfl
  · rw [finish_portD]
    exact congrArg (fun x => x.2.2.2.2.2.2.2.2.2.2.2.2.2.2) hout
  · rw [finish_portF]
    exact congrArg (fun x => x.2.2.2.2.2.2.2.2.2.1) hout
  · rw [finish_gapMark, finish_portD]
    rcases notify_gap_or ((s.reserve.swapped.takePlan s.active).stored s.store.planPending) .planCommitted .none s.active.number
      s.store.planPending.number with h | h
    · exact .inl h
    · refine .inr ⟨(s.reserve.swapped.takePlan s.active).portD.own, (s.reserve.swapped.takePlan s.active).report.gapMark, ?_⟩
      rw [hnow] at h
      show s.reserve.commitPlan.portD.own ++ [replyTo p .done (beBytes 2 s.store.planPending.number)] = _
      rw [commitPlan_eq]
      refine (congrArg (· ++ [replyTo p .done (beBytes 2 s.store.planPending.number)]) h).trans ?_
      exact List.append_assoc ..

/-- Settles O48: each block's part of the COMMIT writes its own records once, and the gangs' events behind it move channels but
write no request, no mark of a gang and no blocking state. -/
theorem commitSwapsThePlanIn : Obligations.CommitSwapsThePlanIn := by
  intro s p hs ha hr hw hf hb
  obtain ⟨t, hexec, hrep, hc⟩ := exec_commit hs ha hr hw hf hb
  have htake := takePlan_sameBut s.reserve.swapped s.active
  have hchan : ∀ g, t.chan g = (s.reserve.swapped.takePlan s.active).chan g := chan_of_sameBut (by decide) hc.rest
  have hgang : ∀ c, t.gang c = (s.reserve.swapped.takePlan s.active).gang c := gang_of_sameBut (by decide) hc.rest
  have hhead : ∀ k, t.station k = (s.reserve.swapped.commitHead s.active).station k := fun k =>
    (station_of_sameBut (by decide) hc.rest k).trans (station_of_sameBut (by decide) (planTail_sameBut _ _) k)
  have hstation : ∀ k, t.station k = (s.station k).atCommit (s.active.stations.get k) (s.store.planPending.stations.get k) := fun k =>
    (hhead k).trans (commitHead_station ..)
  have hreach : ∀ k, t.reach k = (s.reach k).atCommit (s.active.reaches.get k) (s.store.planPending.reaches.get k)
      (t.station (upperOf k)).qOut := fun k => by
    rw [reach_of_sameBut (by decide) hc.rest, hhead]
    exact (reach_of_sameBut (by decide) (planTail_sameBut _ _) k).trans (commitHead_reach_station ..)
  have hgangs : ∀ c, (s.reserve.swapped.commitHead s.active).gang c = s.gang c :=
    gang_of_sameBut (s := s.reserve.swapped) (by decide) (commitHead_sameBut s.reserve.swapped s.active)
  have hheadActive : (s.reserve.swapped.commitHead s.active).active = s.store.planPending :=
    active_of_sameBut (by decide) (commitHead_sameBut s.reserve.swapped s.active)
  have hentry : ∀ c, (s.reserve.swapped.commitHead s.active).gangEntry c = s.store.planPending.gangs.get c := fun c => by
    unfold State.gangEntry
    rw [hheadActive]
  have hmembers : ∀ c, (s.reserve.swapped.commitHead s.active).members c = s.store.planPending.membersOf c := fun c => by
    unfold State.members
    rw [hheadActive]
  refine ⟨t, hexec, hrep, hc.store, fun n => ?_, fun g => ⟨fun ho hn => ?_, fun ho hn => ?_, fun ho hn hne => ?_, fun he => ?_⟩,
    fun k => ⟨fun ho hn => ?_, fun ho hn => ?_⟩, fun k => ⟨fun ho hn => ⟨fun he => ?_, fun hne => ?_⟩, fun ho hn => ?_, fun ho hn => ?_⟩,
    fun k => ?_, fun c => ⟨fun hn ho he => ?_, fun hn hnew => ?_, fun ho hn => ?_⟩, hc.notice, congrArg Prod.fst hc.settings,
    congrArg Prod.snd hc.settings, hc.counts.1, hc.counts.2, ?_⟩
  · rw [show t.armed = _ from hc.rest .armed (by decide), takePlan_head_tail, planTail_armed, hheadActive]
  · rw [hchan]
    exact takePlan_chan_bound (s := s.reserve.swapped) ho hn
  · rw [hchan]
    exact takePlan_chan_unbound (s := s.reserve.swapped) ho hn
  · rw [hchan, takePlan_chan_rebound (s := s.reserve.swapped) ho hn hne]
    exact ⟨rfl, rfl, rfl, rfl, rfl, rfl, rfl, rfl, rfl⟩
  · have hread := takePlan_readings (s := s.reserve.swapped) (old := s.active) (g := g) he
    simp only [State.readings, Prod.mk.injEq] at hread
    rw [hchan]
    exact ⟨hread.1, hread.2.2.1, hread.2.2.2, hread.2.1⟩
  · rw [hstation]
    exact station_atCommit_stays ho hn
  · rw [hstation]
    exact station_atCommit_new ho hn
  · rw [hreach]
    exact reach_atCommit_same _ ho hn he
  · rw [hreach]
    exact reach_atCommit_retimed _ ho hn hne
  · rw [hreach]
    exact reach_atCommit_new _ ho hn
  · rw [hreach, reach_atCommit_gone _ ho hn]
    exact ⟨rfl, rfl⟩
  · rw [silenceOf_of_sameBut (by decide) hc.rest, takePlan_head_tail, planTail_silenceOf,
      silenceOf_of_sameBut (s := s.reserve.swapped) (by decide) (commitHead_sameBut s.reserve.swapped s.active),
      stationEntry_of_sameBut (s := s.reserve.swapped) (by decide) (commitHead_sameBut s.reserve.swapped s.active)]
    exact silence_atCommit_eq ..
  · rw [hgang, takePlan_head_tail]
    obtain ⟨hlast, hout⟩ := planTail_marks (s := s.reserve.swapped.commitHead s.active) ho (by rw [hentry]; exact hn)
      (by rw [hmembers]; exact he)
    exact ⟨by rw [hlast, hgangs], by rw [hout, hgangs]⟩
  · have hstart := commitGangs_started (s := s.reserve.swapped.commitHead s.active) (old := s.active) (by rw [hentry]; exact hn)
      (by rw [hmembers]; exact hnew)
    have hend := (settles_started c _).planRest s.active hstart
    rw [← planTail_eq, ← takePlan_head_tail, hmembers] at hend
    have hsame : t.blockers c = (s.reserve.swapped.takePlan s.active).blockers c :=
      blockers_congr ((congrArg PlanStore.active hc.store).trans
        (congrArg PlanStore.active (swapped_takePlan_store s.reserve s.active)).symm) (by rw [hgang]) fun m => by rw [hchan]
    rw [hgang, hsame]
    exact ⟨hend.lastMover, hend.dwell, hend.out, hend.hold⟩
  · rw [hgang, takePlan_head_tail, planTail_absent ho (by rw [hentry]; exact hn)]
    refine ⟨rfl, rfl, rfl, rfl, fun g hg hnone => ?_⟩
    rw [hchan, takePlan_head_tail]
    exact planTail_ungrouped ho (by rw [hentry]; exact hn) hg (by rw [hheadActive]; exact hnone)
  · exact ((reserve_sameBut s).mono (by decide)).trans (((setStore_sameBut s.reserve _).mono (by decide)).trans
      ((htake.mono (by decide)).trans (hc.rest.mono (by decide))))

end Sys2Proof.Machine
end

section
/-! An admitted SETPOINT (R111): the request, the activity of its station, the sampler, the notice. -/

namespace Sys2Proof.Machine

/-! ### The sampler behind the request -/

/-- What no block writes in the sampler while no command is followed: everything. -/
theorem settles_untagged {m : Sampler} (hm : m.tagged = none) : Turns (fun s => s.report.sampler = m)
    ∧ Settles fun s => s.report.sampler = m := by
  have henter : ∀ (s : State) g st, s.report.sampler = m → (s.enter g st).report.sampler = m := fun s g st h =>
    (congrArg Report.sampler (enter_report s g st)).trans h
  have hnote : ∀ (s : State) g, s.report.sampler = m → (s.noteEnqueued g).report.sampler = m := fun s g h => by
    unfold State.noteEnqueued
    rw [h, hm]
    exact h
  have q : Turns fun s => s.report.sampler = m :=
    { gang := fun _ _ _ h => h
      waits := fun _ _ _ h => h
      notice := fun _ _ _ _ _ h => (notify_sampler ..).trans h
      start := fun s g target _ _ _ h => by
        unfold State.startIncrement
        exact hnote _ g (henter _ _ _ h)
      hold := fun s g _ h => henter s g _ h
      wake := fun s g _ h => henter s g _ h
      free := fun s g _ h => henter s g _ h }
  exact ⟨q, .of_turns q (fun s g _ h => henter s g _ h) (fun _ _ h => h) (fun _ _ _ h => h) (fun _ _ _ h => h) fun _ _ h => h⟩

/-- The interval and the countdown are as given, and the sampler has a reason to tag nothing (R168). -/
structure Sampler.Busy (n c : Nat) (m : Sampler) : Prop where
  interval : m.interval = n
  countdown : m.countdown = c
  busy : m.interval = 0 ∨ m.tagged ≠ none ∨ m.record ≠ none

theorem Sampler.Busy.of_same {n c : Nat} {m m' : Sampler} (h : m.Busy n c) (hi : m'.interval = m.interval)
    (hc : m'.countdown = m.countdown) (hb : m.tagged ≠ none ∨ m.record ≠ none → m'.tagged ≠ none ∨ m'.record ≠ none) :
    m'.Busy n c :=
  ⟨hi.trans h.interval, hc.trans h.countdown, h.busy.imp (fun h0 => hi.trans h0) hb⟩

theorem noteEnqueued_busy {s : State} {n c : Nat} (h : s.report.sampler.Busy n c) (g : Gate) :
    (s.noteEnqueued g).report.sampler.Busy n c := by
  unfold State.noteEnqueued
  split
  · split
    · exact h.of_same rfl rfl fun _ => .inl nofun
    · exact h
  · exact h

theorem endTrace_busy {s : State} {n c : Nat} (h : s.report.sampler.Busy n c) (cause : EndCause) :
    (s.endTrace cause).report.sampler.Busy n c := by
  unfold State.endTrace
  split
  · exact h
  · exact h.of_same rfl rfl fun _ => .inr nofun

theorem settles_busy (n c : Nat) : Turns (fun s => s.report.sampler.Busy n c) ∧ Settles fun s => s.report.sampler.Busy n c := by
  have henter : ∀ (s : State) g st, s.report.sampler.Busy n c → (s.enter g st).report.sampler.Busy n c := fun s g st h => by
    rw [enter_report]
    exact h
  have q : Turns fun s => s.report.sampler.Busy n c :=
    { gang := fun _ _ _ h => h
      waits := fun _ _ _ h => h
      notice := fun _ _ _ _ _ h => by rw [notify_sampler]; exact h
      start := fun s g target _ _ _ h => by
        unfold State.startIncrement
        simp only
        refine noteEnqueued_busy ?_ g
        exact henter (s.setChan g _) g _ h
      hold := fun s g _ h => henter s g _ h
      wake := fun s g _ h => henter s g _ h
      free := fun s g _ h => henter s g _ h }
  exact ⟨q, .of_turns q (fun s g _ h => henter s g _ h) (fun _ _ h => h) (fun _ _ _ h => h) (fun _ _ _ h => h) fun _ _ h => h⟩

theorem Settles.activity {P : State → Prop} (q : Settles P) {s : State} (k : StationId) (h : P s) : P (s.activity k) := by
  unfold State.activity State.restartSilence
  split
  · split
    · exact q.silence _ _ _ h
    · exact h
  · exact q.resumeStation _ _ _ h
  · exact h

/-- A property that the gang machinery keeps, through a request that the channel takes. -/
theorem Turns.takeRequest {P : State → Prop} (q : Turns P) {s : State} {g : Gate} (ht : (s.chan g).state.takes = true) {o : Nat}
    {src : Source} {mark : ClampMark} (h : P ((s.requested g o src mark).supersede g)) : P (s.takeRequest g o src mark) := by
  rw [takeRequest_takes ht]
  exact q.chanEvent _ _ h

/-- The end of an event where no command is followed leaves the sampler. -/
theorem finish_sampler_untagged {s : State} (h : s.report.sampler.tagged = none) : s.finish.report.sampler = s.report.sampler := by
  rw [finish_eq]
  unfold State.followTrace
  rw [show (s.setPortF s.portF.settleWaits).report.sampler.tagged = none from h]
  rfl

/-- The end of an event keeps the command that is followed, or ends its trace. -/
theorem finish_sampler_tagged {s : State} {tr : Trace} (h : s.report.sampler.tagged = some tr) :
    s.finish.report.sampler = s.report.sampler ∨ ∃ r, r.trace = tr ∧ r.ended = s.now
      ∧ s.finish.report.sampler = { s.report.sampler with tagged := none, record := some r } := by
  have hend : ∀ cause, ∃ r : TraceRecord, r.trace = tr ∧ r.ended = s.now
      ∧ ((s.setPortF s.portF.settleWaits).endTrace cause).report.sampler
        = { s.report.sampler with tagged := none, record := some r } := fun cause =>
    ⟨_, rfl, rfl, endTrace_report (s := s.setPortF s.portF.settleWaits) h cause⟩
  rw [finish_eq]
  unfold State.followTrace
  rw [show (s.setPortF s.portF.settleWaits).report.sampler.tagged = some tr from h]
  simp only
  split
  case h_6 =>
    split
    · exact .inl rfl
    · exact .inr (hend _)
  case h_7 => exact .inl rfl
  case h_8 => exact .inl rfl
  all_goals exact .inr (hend _)

theorem finish_busy {s : State} {n c : Nat} (h : s.report.sampler.Busy n c) : s.finish.report.sampler.Busy n c := by
  cases ht : s.report.sampler.tagged with
  | none =>
    rw [finish_sampler_untagged ht]
    exact h
  | some tr =>
    rcases finish_sampler_tagged ht with he | ⟨r, _, _, he⟩ <;> rw [he]
    · exact h
    · exact h.of_same rfl rfl fun _ => .inr nofun

/-! ### Sampling -/

section sample

variable {s : State} {k : StationId} {g : Gate} {f : SetpointFields} {target : Nat} {mark : ClampMark} {window : Nat × Nat}
  {enqueued : Bool}

theorem sample_busy {n c : Nat} (h : s.report.sampler.Busy n c) : s.sample k g f target mark window enqueued = s := by
  unfold State.sample
  refine if_pos (h.busy.imp_right fun hb => hb.imp (fun ht => ?_) fun hr => ?_)
  · exact Option.isSome_iff_ne_none.mpr ht
  · exact Option.isSome_iff_ne_none.mpr hr

variable (hi : 0 < s.report.sampler.interval) (ht : s.report.sampler.tagged = none) (hr : s.report.sampler.record = none)

include hi ht hr

theorem sampler_free : ¬ (s.report.sampler.interval = 0 ∨ s.report.sampler.tagged.isSome = true
    ∨ s.report.sampler.record.isSome = true) := by
  rw [ht, hr]
  rintro (h | h | h)
  · omega
  · cases h
  · cases h

theorem sample_counts (hc : 0 < s.report.sampler.countdown) : s.sample k g f target mark window enqueued
    = s.setSampler { s.report.sampler with countdown := s.report.sampler.countdown - 1 } := by
  unfold State.sample
  simp only
  rw [if_neg (sampler_free hi ht hr), if_pos hc]

theorem sample_tags (hc : s.report.sampler.countdown = 0) : s.sample k g f target mark window enqueued
    = s.setSampler { s.report.sampler with tagged := some ⟨f.issuer, g, f.opening, target, mark, window.1, window.2, s.planned k,
        s.now, if enqueued then some s.now else none⟩ } := by
  unfold State.sample
  simp only
  rw [if_neg (sampler_free hi ht hr), if_neg (by omega)]

end sample

theorem setSampler_sameBut (s : State) (m : Sampler) : SameBut [.report] s (s.setSampler m) := setReport_sameBut _ _

theorem sample_sameBut (s : State) (k : StationId) (g : Gate) (f : SetpointFields) (target : Nat) (mark : ClampMark)
    (window : Nat × Nat) (enqueued : Bool) : SameBut [.report] s (s.sample k g f target mark window enqueued) := by
  unfold State.sample
  simp only
  split
  · exact SameBut.refl _ _
  · split
    · exact setSampler_sameBut _ _
    · exact setSampler_sameBut _ _

theorem sample_settings (s : State) (k : StationId) (g : Gate) (f : SetpointFields) (target : Nat) (mark : ClampMark)
    (window : Nat × Nat) (enqueued : Bool) : (s.sample k g f target mark window enqueued).settings = s.settings := by
  unfold State.sample
  simp only
  split
  · rfl
  · split <;> rfl

theorem notifyClamp_sameBut (s : State) (g : Gate) (mark : ClampMark) (src : Source) (received target : Nat) :
    SameBut [.portD, .report] s (s.notifyClamp g mark src received target) := by
  unfold State.notifyClamp
  split
  · exact SameBut.refl _ _
  · exact notify_sameBut _ _ _ _ _

theorem notifyClamp_sampler (s : State) (g : Gate) (mark : ClampMark) (src : Source) (received target : Nat) :
    (s.notifyClamp g mark src received target).report.sampler = s.report.sampler := by
  unfold State.notifyClamp
  split
  · rfl
  · exact notify_sampler ..

/-! ### Activity -/

theorem activity_sameBut (s : State) (k : StationId) :
    SameBut [.silence, .chans, .gangs, .portF, .portD, .report] s (s.activity k) := by
  unfold State.activity State.restartSilence
  split
  · split
    · exact (setSilence_sameBut _ _ _).mono (by decide)
    · exact SameBut.refl _ _
  · exact resumeStation_sameBut _ _ _ _
  · exact SameBut.refl _ _

theorem activity_requests (s : State) (k : StationId) : (s.activity k).requests = s.requests := by
  unfold State.activity State.restartSilence
  split
  · split <;> rfl
  · next hl =>
    funext g
    rw [resumeStation_requests, if_neg fun h => by rw [hl] at h; cases h.2.1]
    rfl
  · rfl

/-- The silence record of a station that was active, by its level (R118, R119). -/
def SilenceRec.active (r : SilenceRec) (e : StationEntry) : SilenceRec :=
  match r.level with
  | .l0 => if 0 < e.silenceCount then { level := .l0, timer := some e.silencePeriod } else r
  | .l1 => { level := .l0, timer := restartedTimer e }
  | .l2 => r

theorem activity_silenceOf (s : State) (k j : StationId) : (s.activity k).silenceOf j
    = if j = k then (s.silenceOf k).active (s.stationEntry k) else s.silenceOf j := by
  have hself : ∀ x, x = s.silenceOf k → s.silenceOf j = if j = k then x else s.silenceOf j := fun x hx => by
    split
    · next hj => rw [hj, hx]
    · rfl
  unfold State.activity State.restartSilence restartedTimer SilenceRec.active
  cases hl : (s.silenceOf k).level with
  | l0 =>
    by_cases hn : 0 < (s.stationEntry k).silenceCount
    · simp only [if_pos hn]
      rw [silenceOf_setSilence, hl]
    · simp only [if_neg hn]
      exact hself _ rfl
  | l1 => exact resumeStation_silenceOf ..
  | l2 => exact hself _ rfl

/-! ### The request of a SETPOINT -/

/-- The measured openings of the channels. -/
def State.measures : State → Gate → Option Nat := fun s g => (s.chan g).measured

theorem measures_setChan_same {s : State} {i : Gate} {c : Channel} (h : c.measured = (s.chan i).measured) :
    (s.setChan i c).measures = s.measures := by
  funext g
  unfold State.measures
  rw [chan_setChan]
  split
  · next e => rw [e, h]
  · rfl

theorem blindReq_measures : BlindReq State.measures where
  move s i st start dir tag pend := measures_setChan_same (c := (s.chan i).moved st start dir tag pend) rfl
  gang _ _ _ := rfl
  portF _ _ _ _ _ := rfl
  report _ _ := rfl
  own _ _ := rfl
  give s i gov src mark pend := measures_setChan_same (c := (s.chan i).given gov src mark pend) rfl

theorem settles_measures (x : Gate → Option Nat) : Settles fun s => s.measures = x where
  review _ _ h := (blindReq_measures.toBlind.gangReview _ _ _).trans h
  judge _ _ h := (blindReq_measures.toBlind.judge _ _).trans h
  notice _ _ _ _ _ h := (blindReq_measures.toBlind.notify _ _ _ _ _).trans h
  leave _ _ _ h := (blindReq_measures.toBlind.enter _ _ _).trans h
  unmark s i h := (measures_setChan_same (c := { s.chan i with silencePending := false }) rfl).trans h
  turn s i _ h := (measures_setChan_same (c := { s.chan i with source := .dispatch }) rfl).trans h
  silence _ _ _ h := h
  armed _ _ h := h

/-- A channel that took a request is not in the silence hold, and another's request leaves a channel outside its gang. -/
theorem takeRequest_silenceHeld {s : State} {k : StationId} {g : Gate} (ht : (s.chan g).state.takes = true)
    (hg : s.active.gangOf g = none) (o : Nat) (src : Source) (mark : ClampMark) :
    (s.takeRequest g o src mark).silenceHeld k = (s.silenceHeld k).filter fun h => h != g := by
  have hsame := requested_supersede_sameBut s g o src mark
  have hact : ((s.requested g o src mark).supersede g).active = s.active := active_of_sameBut (by decide) hsame
  have hjudge : s.takeRequest g o src mark = ((s.requested g o src mark).supersede g).judge g := by
    rw [takeRequest_takes ht, chanEvent_alone (by rw [hact]; exact hg)]
  have hchan : ∀ h, ((s.requested g o src mark).supersede g).chan h = (s.requested g o src mark).chan h := supersede_chan _ g
  have hheld : ∀ h, (((s.takeRequest g o src mark).chan h).state == .hold .silence)
      = ((h != g) && ((s.chan h).state == .hold .silence)) := fun h => by
    rw [hjudge]
    by_cases e : h = g
    · subst e
      rw [bne_self_eq_false, Bool.false_and]
      refine beq_eq_false_iff_ne.mpr ?_
      rcases judge_chan_cases ((s.requested h o src mark).supersede h) h h with hk | ⟨_, target, _, hk⟩
      · rw [hk, hchan, requested_chan, if_pos rfl]
        split
        · nofun
        · next hn => exact hn
      · rw [hk]
        nofun
    · rw [show (h != g) = true from bne_iff_ne.mpr e, Bool.true_and]
      rcases judge_chan_cases ((s.requested g o src mark).supersede g) h g with hk | ⟨he, _⟩
      · rw [hk, hchan, requested_chan, if_neg e]
      · exact absurd he.symm e
  unfold State.silenceHeld
  rw [show (s.takeRequest g o src mark).active = s.active from quiet_active.takeRequest .., List.filter_filter]
  exact List.filter_congr fun h _ => hheld h

/-- A request outside a gang hands on no notice. -/
theorem takeRequest_alone_own {s : State} {g : Gate} (ht : (s.chan g).state.takes = true) (hg : s.active.gangOf g = none) (o : Nat)
    (src : Source) (mark : ClampMark) : (s.takeRequest g o src mark).portD = s.portD
      ∧ (s.takeRequest g o src mark).report.gapMark = s.report.gapMark := by
  have hsame := requested_supersede_sameBut s g o src mark
  have hact : ((s.requested g o src mark).supersede g).active = s.active := active_of_sameBut (by decide) hsame
  rw [takeRequest_takes ht, chanEvent_alone (by rw [hact]; exact hg)]
  refine ⟨(judge_own _ g).trans (hsame .portD (by decide)), ?_⟩
  rw [judge_gapMark]
  unfold State.supersede
  split
  · rw [endTrace_gapMark]
    exact congrArg Report.gapMark (requested_sameBut s g o src mark .report (by decide))
  · exact congrArg Report.gapMark (requested_sameBut s g o src mark .report (by decide))

end Sys2Proof.Machine
end

section
/-! An admitted SETPOINT, from the frame to the end of its event. -/

namespace Sys2Proof.Machine

/-- The request of a SETPOINT taken, and its station active (R111). -/
def State.asked (s : State) (k : StationId) (g : Gate) (f : SetpointFields) : State :=
  (s.takeRequest g (s.setpointTarget k g f).1 .dispatch (s.setpointTarget k g f).2).activity k

theorem admitSetpoint_eq (s : State) (k : StationId) (g : Gate) (f : SetpointFields) : s.admitSetpoint k g f
    = ((s.asked k g f).sample k g f (s.setpointTarget k g f).1 (s.setpointTarget k g f).2 ((s.station k).qmin, (s.station k).qmax)
        (decide (((s.asked k g f).chan g).tag ≠ (s.chan g).tag))).notifyClamp g (s.setpointTarget k g f).2 .dispatch f.opening
        (s.setpointTarget k g f).1 := rfl

section asked

variable {s : State} (k : StationId) {g : Gate} (f : SetpointFields)

theorem takeRequest_sameBut (s : State) (g : Gate) (o : Nat) (src : Source) (mark : ClampMark) :
    SameBut [.chans, .gangs, .portF, .portD, .report] s (s.takeRequest g o src mark) := sameBut_of_quiet fun q => q.takeRequest _ _ _ _ _

theorem asked_sameBut (s : State) (g : Gate) : SameBut [.silence, .chans, .gangs, .portF, .portD, .report] s (s.asked k g f) :=
  ((takeRequest_sameBut _ _ _ _ _).mono (by decide)).trans (activity_sameBut _ k)

theorem asked_measures (s : State) (g : Gate) : (s.asked k g f).measures = s.measures :=
  (settles_measures s.measures).activity k (blindReq_measures.takeRequest ..)

theorem asked_silenceOf (s : State) (g : Gate) (j : StationId) : (s.asked k g f).silenceOf j
    = if j = k then (s.silenceOf k).active (s.stationEntry k) else s.silenceOf j := by
  have h := takeRequest_sameBut s g (s.setpointTarget k g f).1 .dispatch (s.setpointTarget k g f).2
  refine (activity_silenceOf ..).trans ?_
  rw [silenceOf_of_sameBut (by decide) h, silenceOf_of_sameBut (by decide) h, stationEntry_of_sameBut (by decide) h]

/-- At level 1 a request is a resumption of its station. -/
theorem asked_resumes (hl : (s.silenceOf k).level = .l1) : s.asked k g f
    = (s.takeRequest g (s.setpointTarget k g f).1 .dispatch (s.setpointTarget k g f).2).resumeStation k
        (restartedTimer (s.stationEntry k)) .activity := by
  have h := takeRequest_sameBut s g (s.setpointTarget k g f).1 .dispatch (s.setpointTarget k g f).2
  unfold State.asked State.activity
  rw [silenceOf_of_sameBut (by decide) h, hl, stationEntry_of_sameBut (by decide) h]

theorem asked_unsilenced (hl : (s.silenceOf k).level = .l1) {h : Gate} (hb : s.active.boundTo k h = true) :
    (s.asked k g f).unsilenced h := by
  rw [asked_resumes k f hl]
  refine resumeStation_unsilenced _ k _ _ ?_
  rw [active_of_sameBut (by decide) (takeRequest_sameBut s g _ _ _)]
  exact hb

/-- The notice of the resumption, from a state that agrees in the own frames, the gap mark and the clock. -/
theorem asked_noticed {u t : State} (ht : (s.chan g).state.takes = true) (hg : s.active.gangOf g = none)
    (hl : (s.silenceOf k).level = .l1) (hD : s.portD.own = u.portD.own) (hres : s.portD.reserved = u.portD.reserved)
    (hgap : s.report.gapMark = u.report.gapMark) (hc : s.clock = u.clock)
    (hp : ∀ l, l <+: (s.asked k g f).portD.own → l <+: t.portD.own) : Noticed u t .silenceResume (.station k.1) (packDetail 0 1)
      (packValue ((s.silenceHeld k).filter fun h => h != g).length 0) := by
  have hsame := takeRequest_sameBut s g (s.setpointTarget k g f).1 .dispatch (s.setpointTarget k g f).2
  obtain ⟨hown, hmark⟩ := takeRequest_alone_own ht hg (s.setpointTarget k g f).1 .dispatch (s.setpointTarget k g f).2
  have hnote := resumeStation_noticed_behind (s := u) (t := t) (k := k) (timer := restartedTimer (s.stationEntry k)) (cause := .activity)
    (w := s.takeRequest g (s.setpointTarget k g f).1 .dispatch (s.setpointTarget k g f).2) (by rw [hown, hD]) (by rw [hown, hres])
    (by rw [hmark, hgap]) ((hsame .clock (by decide)).1.trans hc) fun l h => hp l (by rw [asked_resumes k f hl]; exact h)
  unfold State.turned at hnote
  rwa [silenceOf_of_sameBut (by decide) hsame, hl, if_neg (by decide), takeRequest_silenceHeld ht hg] at hnote

variable (ht : (s.chan g).state.takes = true)

include ht

theorem asked_requests (h : Gate) : (s.asked k g f).requests h
    = if h = g then (some (s.setpointTarget k g f).1, .dispatch, (s.setpointTarget k g f).2) else s.requests h := by
  unfold State.asked
  rw [activity_requests, takeRequest_requests]
  simp only [ht, and_true]

/-- The sampler behind the request where no command is followed. -/
theorem asked_untagged (h : s.report.sampler.tagged = none) : (s.asked k g f).report.sampler = s.report.sampler := by
  obtain ⟨q, q'⟩ := settles_untagged h
  refine q'.activity k (q.takeRequest ht ?_)
  have hreq : (s.requested g (s.setpointTarget k g f).1 .dispatch (s.setpointTarget k g f).2).report = s.report :=
    requested_sameBut _ _ _ _ _ .report (by decide)
  unfold State.supersede State.traces
  rw [hreq, h]
  exact congrArg Report.sampler hreq

theorem asked_busy {n c : Nat} (h : s.report.sampler.Busy n c) : (s.asked k g f).report.sampler.Busy n c := by
  obtain ⟨q, q'⟩ := settles_busy n c
  refine q'.activity k (q.takeRequest ht ?_)
  have hreq : (s.requested g (s.setpointTarget k g f).1 .dispatch (s.setpointTarget k g f).2).report.sampler.Busy n c := by
    rw [show State.report _ = s.report from requested_sameBut s g _ _ _ .report (by decide)]
    exact h
  unfold State.supersede
  split
  · exact endTrace_busy hreq _
  · exact hreq

/-- A trace of the channel ends with the request, superseded (R169). -/
theorem asked_superseded {tr : Trace} (h : s.report.sampler.tagged = some tr) (hg : tr.gate = g) :
    ∃ r : TraceRecord, r.trace = tr ∧ r.ended = s.now ∧ r.cause = .superseded
      ∧ (s.asked k g f).report.sampler = { s.report.sampler with tagged := none, record := some r } := by
  have hsame := requested_sameBut s g (s.setpointTarget k g f).1 .dispatch (s.setpointTarget k g f).2
  generalize hu : s.requested g (s.setpointTarget k g f).1 .dispatch (s.setpointTarget k g f).2 = u at hsame
  have hreq : u.report = s.report := hsame .report (by decide)
  have htraces : u.traces g = true := by
    unfold State.traces
    rw [hreq, h]
    exact beq_iff_eq.mpr hg
  have hend : (u.supersede g).report.sampler = { s.report.sampler with
      tagged := none
      record := some { trace := tr, ended := u.now, cause := .superseded, endState := (u.chan tr.gate).state.code } } := by
    unfold State.supersede
    rw [if_pos htraces, endTrace_report (by rw [hreq]; exact h), hreq]
  refine ⟨⟨tr, u.now, .superseded, (u.chan tr.gate).state.code⟩, rfl, congrArg Clock.plantTime (hsame .clock (by decide)).1, rfl, ?_⟩
  obtain ⟨q, q'⟩ := settles_untagged (m := (u.supersede g).report.sampler) (by rw [hend])
  have := q'.activity k (q.takeRequest ht (o := (s.setpointTarget k g f).1) (src := .dispatch)
    (mark := (s.setpointTarget k g f).2) (by rw [hu]))
  exact this.trans hend

end asked

/-! ### The whole event -/

section admitted

variable {s : State} {k : StationId} {g : Gate} {f : SetpointFields}

/-- Behind the request an admitted SETPOINT writes the sampler, its notice and the end of its event. -/
theorem admitted_sameBut (s : State) (k : StationId) (g : Gate) (f : SetpointFields) :
    SameBut [.portF, .portD, .report] (s.asked k g f) (s.admitSetpoint k g f).finish := by
  rw [admitSetpoint_eq]
  exact ((sample_sameBut _ _ _ _ _ _ _ _).mono (by decide)).trans (((notifyClamp_sameBut _ _ _ _ _ _).mono (by decide)).trans
    ((finish_sameBut _).mono (by decide)))

theorem admitted_chan (h : Gate) : (s.admitSetpoint k g f).finish.chan h = (s.asked k g f).chan h :=
  chan_of_sameBut (by decide) (admitted_sameBut s k g f) h

theorem admitted_own (l : List OwnFrame) (h : l <+: (s.asked k g f).portD.own) :
    l <+: (s.admitSetpoint k g f).finish.portD.own := by
  rw [admitSetpoint_eq]
  exact (keeps_own l).finish ((keeps_own l).notifyClamp _ _ _ _ _ ((keeps_own l).sample _ _ _ _ _ _ _ h))

theorem planned_congr {s t : State} (hc : t.chans = s.chans) (hst : t.stations = s.stations) (ha : t.active = s.active)
    (k : StationId) : t.planned k = s.planned k := by
  have hchan : ∀ h, t.chan h = s.chan h := fun h => congrArg (fun x => Tab.get x h) hc
  unfold State.planned State.plannedExcept
  rw [ha, headOf_congr ha hst]
  exact congrArg List.sum (List.map_congr_left fun h _ => by rw [rate_congr ha, hchan])

theorem admitted_planned (j : StationId) : (s.admitSetpoint k g f).finish.planned j = (s.asked k g f).planned j := by
  have h := admitted_sameBut s k g f
  exact planned_congr (h .chans (by decide)) (h .stations (by decide)) (active_of_sameBut (by decide) h) j

/-- The sampler of the event's end, from what the sampling left. -/
theorem admitted_sampler (s : State) (k : StationId) (g : Gate) (f : SetpointFields) : ∃ u : State,
    (s.admitSetpoint k g f).finish = u.finish ∧ u.now = s.now ∧ u.report.sampler
      = ((s.asked k g f).sample k g f (s.setpointTarget k g f).1 (s.setpointTarget k g f).2
          ((s.station k).qmin, (s.station k).qmax) (decide (((s.asked k g f).chan g).tag ≠ (s.chan g).tag))).report.sampler := by
  refine ⟨_, rfl, ?_, by rw [admitSetpoint_eq, notifyClamp_sampler]⟩
  have h : SameBut [.silence, .chans, .gangs, .portF, .portD, .report] s (s.admitSetpoint k g f) := by
    rw [admitSetpoint_eq]
    exact (asked_sameBut k f s g).trans (((sample_sameBut _ _ _ _ _ _ _ _).mono (by decide)).trans
      ((notifyClamp_sameBut _ _ _ _ _ _).mono (by decide)))
  exact congrArg Clock.plantTime (h .clock (by decide)).1

/-- The trace of a SETPOINT that the sampler tags (R168). -/
def State.tracing (s : State) (k : StationId) (g : Gate) (f : SetpointFields) : Trace :=
  ⟨f.issuer, g, f.opening, (s.setpointTarget k g f).1, (s.setpointTarget k g f).2, (s.station k).qmin, (s.station k).qmax,
    (s.asked k g f).planned k, s.now, if ((s.asked k g f).chan g).tag = (s.chan g).tag then none else some s.now⟩

variable (ht : (s.chan g).state.takes = true)

include ht

theorem admitted_busy {n c : Nat} (h : s.report.sampler.Busy n c) : (s.admitSetpoint k g f).finish.report.sampler.Busy n c := by
  obtain ⟨u, he, _, hm⟩ := admitted_sampler s k g f
  rw [sample_busy (asked_busy k f ht h)] at hm
  rw [he]
  exact finish_busy (by rw [hm]; exact asked_busy k f ht h)

theorem admitted_superseded {tr : Trace} (h : s.report.sampler.tagged = some tr) (hg : tr.gate = g) :
    (s.admitSetpoint k g f).finish.report.sampler.tagged = none ∧ ∃ r,
      (s.admitSetpoint k g f).finish.report.sampler.record = some r ∧ r.trace = tr ∧ r.ended = s.now ∧ r.cause = .superseded := by
  obtain ⟨r, hr, hnow, hcause, hs⟩ := asked_superseded k f ht h hg
  obtain ⟨u, he, _, hm⟩ := admitted_sampler s k g f
  have hbusy : (s.asked k g f).report.sampler.Busy s.report.sampler.interval s.report.sampler.countdown := by
    rw [hs]
    exact ⟨rfl, rfl, .inr (.inr nofun)⟩
  rw [sample_busy hbusy, hs] at hm
  rw [he, finish_sampler_untagged (by rw [hm]), hm]
  exact ⟨rfl, r, rfl, hr, hnow, hcause⟩

theorem admitted_settings : (s.admitSetpoint k g f).finish.settings = s.settings := by
  obtain ⟨q, q'⟩ := settles_settings s.settings
  have hasked : (s.asked k g f).settings = s.settings := by
    refine q'.activity k (q.takeRequest ht ?_)
    have hreq := settings_of_sameBut (s := s) (by decide)
      (requested_sameBut s g (s.setpointTarget k g f).1 .dispatch (s.setpointTarget k g f).2)
    unfold State.supersede
    split
    · rw [endTrace_settings, hreq]
    · exact hreq
  rw [finish_settings, admitSetpoint_eq]
  unfold State.notifyClamp
  split
  · rw [sample_settings, hasked]
  · rw [notify_settings, sample_settings, hasked]

section free

variable (hi : 0 < s.report.sampler.interval) (hn : s.report.sampler.tagged = none) (hr : s.report.sampler.record = none)

include hi hn hr

theorem admitted_counts (hc : 0 < s.report.sampler.countdown) : (s.admitSetpoint k g f).finish.report.sampler
    = { s.report.sampler with countdown := s.report.sampler.countdown - 1 } := by
  have hs := asked_untagged k f ht hn
  obtain ⟨u, he, _, hm⟩ := admitted_sampler s k g f
  rw [sample_counts (by rw [hs]; exact hi) (by rw [hs]; exact hn) (by rw [hs]; exact hr) (by rw [hs]; exact hc)] at hm
  have hm : u.report.sampler = { s.report.sampler with countdown := s.report.sampler.countdown - 1 } := by
    rw [hm, ← hs]
    rfl
  rw [he, finish_sampler_untagged (by rw [hm]; exact hn), hm]

theorem admitted_tags (hc : s.report.sampler.countdown = 0) :
    (s.admitSetpoint k g f).finish.report.sampler = { s.report.sampler with tagged := some (s.tracing k g f) }
    ∨ ∃ r, r.trace = s.tracing k g f ∧ r.ended = s.now
      ∧ (s.admitSetpoint k g f).finish.report.sampler = { s.report.sampler with tagged := none, record := some r } := by
  have hs := asked_untagged k f ht hn
  obtain ⟨u, he, hnow, hm⟩ := admitted_sampler s k g f
  have hclock : (s.asked k g f).now = s.now := congrArg Clock.plantTime (asked_sameBut k f s g .clock (by decide)).1
  rw [sample_tags (by rw [hs]; exact hi) (by rw [hs]; exact hn) (by rw [hs]; exact hr) (by rw [hs]; exact hc)] at hm
  have hm : u.report.sampler = { s.report.sampler with tagged := some (s.tracing k g f) } := by
    rw [hm]
    unfold State.tracing
    rw [hclock, ← hs]
    by_cases h : ((s.asked k g f).chan g).tag = (s.chan g).tag
    · rw [if_pos h, if_neg (by rw [decide_eq_false fun hne => hne h]; decide)]
      rfl
    · rw [if_neg h, if_pos (decide_eq_true h)]
      rfl
  rw [he]
  rcases finish_sampler_tagged (s := u) (tr := s.tracing k g f) (by rw [hm]) with hf | ⟨r, htrace, hended, hf⟩
  · exact .inl (hf.trans hm)
  · exact .inr ⟨r, htrace, hended.trans hnow, by rw [hf, hm]⟩

end free

end admitted

/-- A SETPOINT that no check of R103 refuses is admitted. -/
theorem judgeSetpoint_admits {s : State} {k : StationId} {g : Gate} {f : SetpointFields} {e : AuthEntry} (hi : f.issuer ≤ 63)
    (ha : s.active.authFor f.issuer = some e) (hc : e.command = true) (ho : f.override = true → e.override = true)
    (hw : e.inWindow f.gate = true) (hb : s.active.boundTo k g = true) (ht : (s.chan g).state.takes = true) :
    s.judgeSetpoint g f = s.admitSetpoint k g f := by
  obtain ⟨hbound, hstation⟩ := Bool.and_eq_true_iff.mp hb
  have hfault : s.setpointFault f g = none := by
    rw [setpointFault_behind (authority_eq hi ha) hc ho, if_neg (by rw [hw]; decide), if_neg (by rw [hbound]; decide),
      if_neg (by rw [ht]; decide)]
  unfold State.judgeSetpoint
  rw [hfault, show (s.gateEntry g).station? = some k from of_decide_eq_true hstation]

theorem setpointTarget_override {s : State} {k : StationId} {g : Gate} {f : SetpointFields} (h : f.override = true) :
    s.setpointTarget k g f = (min f.opening 1000, if 1000 < f.opening then .range else .none) := by
  unfold State.setpointTarget
  simp only
  rw [if_pos h]
  show (min f.opening 1000, if decide (1000 < f.opening) = true then _ else _) = _
  simp only [decide_eq_true_eq]

theorem setpointTarget_clamped {s : State} {k : StationId} {g : Gate} {f : SetpointFields} (h : f.override = false) :
    s.setpointTarget k g f = s.windowClamp k g (min f.opening 1000) (decide (1000 < f.opening)) := by
  unfold State.setpointTarget
  simp only
  rw [if_neg (by rw [h]; decide)]
  rfl

/-- Settles O17: the request is taken first, and neither the activity, the sampler nor the notice writes it. -/
theorem admittedSetpointSetsTheTarget : Obligations.AdmittedSetpointSetsTheTarget := by
  intro s dest p f g k e hq hl hf hgate hi ha hc ho hw hb ht
  have hexec : exec (.setpoint dest p) s = .next ((s.countD PortCounts.addReceived).admitSetpoint k g f).finish := by
    have hadmit : s.receiveSetpoint dest p = (s.countD PortCounts.addReceived).admitSetpoint k g f := by
      rw [receiveSetpoint_fits hl, takeSetpoint_gate (g := g) (by rw [← hgate, hf]), ← hf]
      exact judgeSetpoint_admits (s := s.countD PortCounts.addReceived) hi ha hc ho (by rw [hgate]; exact hw) hb ht
    rw [← hadmit]
    exact event_of_quiet hq fun s => s.receiveSetpoint dest p
  set v := s.countD PortCounts.addReceived with hv
  have hcount : SameBut [.portD] s v := countD_sameBut s _
  have hsil : ∀ j, (v.admitSetpoint k g f).finish.silenceOf j
      = if j = k then (s.silenceOf k).active (s.stationEntry k) else s.silenceOf j := fun j =>
    (silenceOf_of_sameBut (by decide) (admitted_sameBut v k g f) j).trans (asked_silenceOf k f v g j)
  have hsilk := (hsil k).trans (if_pos rfl)
  unfold SilenceRec.active at hsilk
  have hreq : ∀ h, (v.admitSetpoint k g f).finish.requests h
      = if h = g then (some (v.setpointTarget k g f).1, .dispatch, (v.setpointTarget k g f).2) else s.requests h := fun h => by
    rw [← show v.requests h = s.requests h from rfl, ← asked_requests (s := v) k f ht h]
    unfold State.requests
    rw [admitted_chan]
  have hmeas : ∀ h, ((v.admitSetpoint k g f).finish.chan h).measured = (s.chan h).measured := fun h => by
    rw [admitted_chan]
    exact congrFun (asked_measures k f v g) h
  have hself := (hreq g).trans (if_pos rfl)
  simp only [State.requests, Prod.mk.injEq] at hself
  obtain ⟨hgov, hsource, hclamp⟩ := hself
  refine ⟨_, hexec, hsource, fun hov => ?_, fun hov => ?_, hmeas g, fun h hne => ?_, ?_, fun h0 hn => ?_, fun h0 hn => ?_,
    fun h1 => ⟨?_, fun h hbound => ?_, fun hgang => ?_⟩, fun h2 => ?_, fun j hj => (hsil j).trans (if_neg hj), ?_, fun hbusy => ?_,
    fun hi hn hr => ⟨fun hc => admitted_counts (s := v) ht hi hn hr hc, fun hc => ?_⟩,
    fun tr htr hg => admitted_superseded (s := v) ht htr hg, ?_⟩
  · rw [setpointTarget_override hov] at hgov hclamp
    exact ⟨hgov, hclamp⟩
  · rw [setpointTarget_clamped hov] at hgov hclamp
    rw [windowClamp_congr (s := s) (t := v) rfl rfl rfl] at hgov hclamp
    exact ⟨hgov, hclamp⟩
  · have hother := (hreq h).trans (if_neg hne)
    simp only [State.requests, Prod.mk.injEq] at hother
    exact ⟨hother.1, hother.2.1, hother.2.2, hmeas h⟩
  · rw [finish_portD]
    exact congrArg (fun x => x.2.2.2.2) (calm_portD.admitSetpoint v k g f)
  · rw [hsilk, h0]
    exact if_pos hn
  · rw [hsilk, h0]
    exact if_neg (by omega)
  · rw [hsilk, h1]
    rfl
  · have hun := asked_unsilenced (s := v) (g := g) k f h1 hbound
    rw [admitted_chan]
    exact ⟨hun.1, hun.2.1⟩
  · exact asked_noticed (s := v) (u := s) k f ht hgang h1 rfl rfl rfl rfl fun l => admitted_own l
  · rw [hsilk, h2]
  · exact congrArg Prod.snd (admitted_settings (s := v) (k := k) (f := f) ht)
  · exact (admitted_busy (s := v) ht ⟨rfl, rfl, hbusy⟩).countdown
  · refine ⟨v.tracing k g f, rfl, rfl, rfl, hgov.symm, hclamp.symm, rfl, rfl, (admitted_planned (s := v) k).symm, rfl, ?_, ?_, ?_⟩
    · rw [admitted_chan]
      rfl
    · rcases admitted_tags (s := v) (k := k) (f := f) ht hi hn hr hc with hm | ⟨r, _, _, hm⟩ <;> rw [hm] <;> exact hc
    · rcases admitted_tags (s := v) (k := k) (f := f) ht hi hn hr hc with hm | ⟨r, htr, hend, hm⟩ <;> rw [hm]
      · exact .inl ⟨rfl, hr⟩
      · exact .inr ⟨rfl, r, rfl, htr, hend⟩
  · exact (hcount.mono (by decide)).trans (((asked_sameBut k f v g).mono (by decide)).trans ((admitted_sameBut v k g f).mono (by decide)))

end Sys2Proof.Machine
end

section
/-! A state in which the first silence expiry moves a channel of no station: a gang dwell that names a gate which is no member. -/

namespace Sys2Proof.Machine

/-- A station that is supervised, and whose table and window pass every check. -/
def supervisedStation : StationEntry :=
  { StationEntry.absent with
    present := 1, hwGauge := 0, twGauge := 1, staleLimit := 1, pointCount := 2, sWatch := 1, sPre := 2, sSur := 3, horizon := 1
    silenceCount := 1, silenceBase := 1, compGang := 255
    points := Tab.gen fun i => { level := i.1, storage := i.1 } }

/-- A surface whose discharge is the opening. -/
def straightSurface : SurfaceEntry :=
  { SurfaceEntry.absent with
    present := 1, openingCount := 2, headCount := 1
    openings := Tab.gen fun i => 1000 * i.1
    nodes := Tab.gen fun _ => Tab.gen fun i => 1000 * i.1 }

/-- A spill gate of station 0. -/
def spillGate : GateEntry := ⟨1, 0, 1, 0, 50, 50, 0, 0, 5, 10, 60, 65535⟩

/-- Station 0 with the spill gates 0 and 1 in gang 0; gate 2 is not bound. -/
def pairPlan : Plan :=
  { Plan.empty with
    stations := Plan.empty.stations.set 0 supervisedStation
    surfaces := Plan.empty.surfaces.set 0 straightSurface
    gates := (Plan.empty.gates.set 0 spillGate).set 1 spillGate
    gangs := Plan.empty.gangs.set 0 { GangEntry.absent with
      present := 1, memberCount := 2, members := Tab.gen fun i => i.1, spread := 1 } }

theorem pairPlan_valid : pairPlan.valid = true := by decide +kernel

/-- That plan ACTIVE and the station's timer expired: gate 0 waits and so blocks its gang, whose dwell and out mark name gate 2,
which is in DWELL. -/
def strayDwell : State :=
  { State.reset with
    portD := PortD.reset
    chans := ((State.reset.chans.set 0 (Channel.resetAs .wait)).set 1 (Channel.resetAs .idle)).set 2 (Channel.resetAs (.dwell none))
    silence := State.reset.silence.set 0 { level := .l0, timer := some 0 }
    gangs := State.reset.gangs.set 0 { Gang.absent with dwell := some { dir := .up, remaining := 5, member := 2 }, out := [2] }
    store := ⟨pairPlan, pairPlan, none, ⟨pairPlan, true⟩, false⟩ }

theorem strayDwell_quiet : strayDwell.quiet :=
  ⟨⟨(settled_iff _).mpr ⟨rfl, rfl, nofun⟩, by decide +kernel, by decide +kernel⟩, rfl⟩

theorem strayDwell_storeSound : StoreSound strayDwell := ⟨pairPlan_valid, pairPlan_valid, nofun, nofun⟩

/-- The state of gate 2 that an outcome leaves. -/
def strayAfter (r : Host.Outcome State Fault Refusal) : Option ChanState :=
  match r with
  | .next t => some (t.chan 2).state
  | _ => none

/-- The gang becomes held, which ends its dwell: gate 2 enters IDLE (R86). -/
theorem strayDwell_expiry : strayAfter (exec (.firstSilenceExpiry 0) strayDwell) = some .idle := by decide +kernel

/-- Refutes O31: `StoreSound` does not say that a gang's dwell names a member. The expiry's event of a gang that a member blocks
brings the gate its dwell names to IDLE, whatever station that gate belongs to. -/
theorem not_firstSilenceExpiryHolds : ¬ Obligations.FirstSilenceExpiryHolds := by
  intro h
  obtain ⟨hdue, _⟩ := h strayDwell 0 strayDwell_quiet
  obtain ⟨t, hexec, _, _, _, hothers, _⟩ := hdue (by decide +kernel)
  have hkeep := congrArg Channel.state (hothers strayDwell_storeSound 2 (by decide +kernel))
  have hstep := strayDwell_expiry
  rw [hexec] at hstep
  have hidle : (t.chan 2).state = .idle := Option.some.inj hstep
  rw [hidle] at hkeep
  cases hkeep

end Sys2Proof.Machine
end

section
/-! The work of a minute and the beginnings on port F see neither the inbox nor whether the Responder waits: with other
values there they do the same (R47, R131, R145, R149). -/

namespace Sys2Proof.Machine

/-- The state with another inbox and another word to the Responder. -/
def State.apart (s : State) (l : List (List Byte)) (b : Bool) : State := { s with inbox := l, told := b }

section apart

variable (s : State) (l : List (List Byte)) (b : Bool)

@[simp] theorem apart_chan (g : Gate) : (s.apart l b).chan g = s.chan g := rfl
@[simp] theorem apart_gang (c : GangId) : (s.apart l b).gang c = s.gang c := rfl
@[simp] theorem apart_station (k : StationId) : (s.apart l b).station k = s.station k := rfl
@[simp] theorem apart_reach (k : ReachId) : (s.apart l b).reach k = s.reach k := rfl
@[simp] theorem apart_active : (s.apart l b).active = s.active := rfl
@[simp] theorem apart_portF : (s.apart l b).portF = s.portF := rfl
@[simp] theorem apart_report : (s.apart l b).report = s.report := rfl
@[simp] theorem apart_minuteDue : (s.apart l b).minuteDue = s.minuteDue := rfl
@[simp] theorem apart_told : (s.apart l b).told = b := rfl
@[simp] theorem apart_inbox : (s.apart l b).inbox = l := rfl
@[simp] theorem apart_gateEntry (g : Gate) : (s.apart l b).gateEntry g = s.gateEntry g := rfl
@[simp] theorem apart_stationEntry (k : StationId) : (s.apart l b).stationEntry k = s.stationEntry k := rfl
@[simp] theorem apart_gangEntry (c : GangId) : (s.apart l b).gangEntry c = s.gangEntry c := rfl
@[simp] theorem apart_reachEntry (k : ReachId) : (s.apart l b).reachEntry k = s.reachEntry k := rfl
@[simp] theorem apart_members (c : GangId) : (s.apart l b).members c = s.members c := rfl
@[simp] theorem apart_workTarget (g : Gate) : (s.apart l b).workTarget g = s.workTarget g := rfl
@[simp] theorem apart_hasWork (g : Gate) : (s.apart l b).hasWork g = s.hasWork g := rfl
@[simp] theorem apart_mayStart (g : Gate) : (s.apart l b).mayStart g = s.mayStart g := rfl
@[simp] theorem apart_queueFor (g : Gate) : (s.apart l b).queueFor g = s.queueFor g := rfl
@[simp] theorem apart_holdable (c : GangId) : (s.apart l b).holdable c = s.holdable c := rfl
@[simp] theorem apart_blockers (c : GangId) : (s.apart l b).blockers c = s.blockers c := rfl
@[simp] theorem apart_scanPick (c : GangId) : (s.apart l b).scanPick c = s.scanPick c := rfl
@[simp] theorem apart_traces (g : Gate) : (s.apart l b).traces g = s.traces g := rfl
@[simp] theorem apart_dueF : (s.apart l b).dueF = s.dueF := rfl

theorem apart_ite (c : Prop) [Decidable c] (t u : State) :
    (if c then t else u).apart l b = if c then t.apart l b else u.apart l b := apply_ite (State.apart · l b) c t u

@[simp] theorem setChan_apart (g : Gate) (c : Channel) : (s.apart l b).setChan g c = (s.setChan g c).apart l b := rfl
@[simp] theorem setGang_apart (c : GangId) (r : Gang) : (s.apart l b).setGang c r = (s.setGang c r).apart l b := rfl
@[simp] theorem setStation_apart (k : StationId) (r : Station) : (s.apart l b).setStation k r = (s.setStation k r).apart l b := rfl
@[simp] theorem setReach_apart (k : ReachId) (r : Reach) : (s.apart l b).setReach k r = (s.setReach k r).apart l b := rfl
@[simp] theorem setPortF_apart (p : PortF) : (s.apart l b).setPortF p = (s.setPortF p).apart l b := rfl
@[simp] theorem leaveWaits_apart (g : Gate) : (s.apart l b).leaveWaits g = (s.leaveWaits g).apart l b := rfl

/-- What does the same at each element does the same over the list. -/
theorem forEach_apart {α : Type} {f : α → State → State} (hf : ∀ x s, f x (s.apart l b) = (f x s).apart l b) (xs : List α) :
    forEach xs f (s.apart l b) = (forEach xs f s).apart l b := by
  induction xs generalizing s with
  | nil => rfl
  | cons x xs ih => exact (congrArg (forEach xs f) (hf x s)).trans (ih (f x s))

@[simp] theorem notify_apart (kind : NoticeKind) (subject : Subject) (d v : Nat) :
    (s.apart l b).notify kind subject d v = (s.notify kind subject d v).apart l b := by
  unfold State.notify
  rw [apart_ite]
  rfl

@[simp] theorem enter_apart (g : Gate) (st : ChanState) : (s.apart l b).enter g st = (s.enter g st).apart l b := by
  unfold State.enter
  simp only [apart_ite]
  rfl

@[simp] theorem joinWait_apart (g : Gate) (w : FieldQueue) : (s.apart l b).joinWait g w = (s.joinWait g w).apart l b := by
  cases w <;> rfl

@[simp] theorem endTrace_apart (c : EndCause) : (s.apart l b).endTrace c = (s.endTrace c).apart l b := by
  unfold State.endTrace
  rw [apart_report]
  split <;> rfl

@[simp] theorem noteEnqueued_apart (g : Gate) : (s.apart l b).noteEnqueued g = (s.noteEnqueued g).apart l b := by
  unfold State.noteEnqueued
  rw [apart_report]
  split
  · rw [apart_ite]
    rfl
  · rfl

@[simp] theorem startIncrement_apart (g : Gate) (target : Nat) (w : FieldQueue) :
    (s.apart l b).startIncrement g target w = (s.startIncrement g target w).apart l b := by
  simp only [State.startIncrement, apart_chan, setChan_apart, apart_gateEntry, enter_apart, apart_portF, setPortF_apart,
    noteEnqueued_apart]
  rfl

@[simp] theorem judge_apart (g : Gate) : (s.apart l b).judge g = (s.judge g).apart l b := by
  unfold State.judge
  simp only [apart_workTarget, apart_mayStart, apart_queueFor, apart_portF, startIncrement_apart, joinWait_apart, leaveWaits_apart]
  split
  · simp only [apart_ite]
  · rfl

@[simp] theorem freeMembers_apart (ms : List Gate) : (s.apart l b).freeMembers ms = (s.freeMembers ms).apart l b :=
  forEach_apart s l b (fun _ t => (ite_congr rfl (fun _ => enter_apart t ..) fun _ => rfl).trans (apart_ite l b _ _ _).symm) ms

theorem enterAll_apart (ms : List Gate) (st : ChanState) :
    forEach ms (fun m s => s.enter m st) (s.apart l b) = (forEach ms (fun m s => s.enter m st) s).apart l b :=
  forEach_apart s l b (fun m t => enter_apart t l b m st) ms

@[simp] theorem becomeHeld_apart (c : GangId) (blocker : Gate) (quiet : Bool) :
    (s.apart l b).becomeHeld c blocker quiet = (s.becomeHeld c blocker quiet).apart l b := by
  simp only [State.becomeHeld, apart_gang, apart_chan, apart_holdable, setGang_apart, enterAll_apart, notify_apart, apart_ite]
  rfl

@[simp] theorem releaseGang_apart (c : GangId) (cause : Gate) :
    (s.apart l b).releaseGang c cause = (s.releaseGang c cause).apart l b := by
  simp only [State.releaseGang, apart_gang, setGang_apart, apart_members, apart_chan, freeMembers_apart, notify_apart]
  rfl

@[simp] theorem judgeHold_apart (c : GangId) (cause : Gate) : (s.apart l b).judgeHold c cause = (s.judgeHold c cause).apart l b := by
  simp only [State.judgeHold, apart_gang, apart_blockers, becomeHeld_apart, releaseGang_apart, apart_holdable, enterAll_apart]
  split <;> rfl

@[simp] theorem checkDwell_apart (c : GangId) : (s.apart l b).checkDwell c = (s.checkDwell c).apart l b := by
  simp only [State.checkDwell, apart_gang, apart_chan, setGang_apart]
  split
  · rw [apart_ite]
    rfl
  · rfl

@[simp] theorem checkTurn_apart (c : GangId) (kind : GangCause) (cause : Option Gate) :
    (s.apart l b).checkTurn c kind cause = (s.checkTurn c kind cause).apart l b := by
  simp only [State.checkTurn, apart_gang]
  split
  · rw [apart_ite]
    rfl
  · rfl

@[simp] theorem scan_apart (c : GangId) (cause : Option Gate) : (s.apart l b).scan c cause = (s.scan c cause).apart l b := by
  simp only [State.scan, apart_scanPick, apart_gang, setGang_apart, judge_apart]
  split
  · rfl
  · split
    · rw [apart_ite]
    · rfl

@[simp] theorem gangEvent_apart (c : GangId) (kind : GangCause) (cause : Gate) :
    (s.apart l b).gangEvent c kind cause = (s.gangEvent c kind cause).apart l b := by
  simp only [State.gangEvent, apart_gangEntry, judgeHold_apart, checkDwell_apart, checkTurn_apart, scan_apart, apart_ite]

@[simp] theorem gangReview_apart (c : GangId) (kind : GangCause) :
    (s.apart l b).gangReview kind c = (s.gangReview kind c).apart l b := by
  simp only [State.gangReview, apart_members, judgeHold_apart, checkDwell_apart, checkTurn_apart, scan_apart]
  split <;> rfl

@[simp] theorem gangReviews_apart (kind : GangCause) (cs : List GangId) :
    (s.apart l b).gangReviews kind cs = (s.gangReviews kind cs).apart l b :=
  forEach_apart s l b (fun c t => gangReview_apart t l b c kind) cs

@[simp] theorem chanEvent_apart (kind : GangCause) (g : Gate) : (s.apart l b).chanEvent kind g = (s.chanEvent kind g).apart l b := by
  simp only [State.chanEvent, apart_active, judge_apart, gangEvent_apart]
  split <;> rfl

@[simp] theorem finish_apart : (s.apart l b).finish = s.finish.apart l b := by
  simp only [State.finish, apart_portF, setPortF_apart, apart_report, apart_chan, apart_hasWork, endTrace_apart]
  split
  · rfl
  · split
    case h_6 => rw [apart_ite]
    all_goals rfl

@[simp] theorem takeRequest_apart (g : Gate) (opening : Nat) (source : Source) (mark : ClampMark) :
    (s.apart l b).takeRequest g opening source mark = (s.takeRequest g opening source mark).apart l b := by
  simp only [State.takeRequest, apart_chan, setChan_apart, enter_apart, ← apart_ite, apart_traces, endTrace_apart, chanEvent_apart]

@[simp] theorem clampAndTake_apart (k : StationId) (g : Gate) (opening : Nat) (source : Source) :
    (s.apart l b).clampAndTake k g opening source = (s.clampAndTake k g opening source).apart l b := by
  have hw : (s.apart l b).windowClamp k g opening false = s.windowClamp k g opening false := rfl
  simp only [State.clampAndTake, hw, takeRequest_apart, State.notifyClamp, notify_apart, apart_ite]

@[simp] theorem takeSchedule_apart (index gate opening : Nat) :
    (s.apart l b).takeSchedule index gate opening = (s.takeSchedule index gate opening).apart l b := by
  have hd : ∀ g, (s.apart l b).scheduleDiscard g = s.scheduleDiscard g := fun _ => rfl
  simp only [State.takeSchedule, hd, apart_gateEntry, notify_apart, clampAndTake_apart]
  split
  · rfl
  · split <;> rfl

@[simp] theorem fire_apart (n : Fin 32) : (s.apart l b).fire n = (s.fire n).apart l b := by
  have hd : ∀ e, (s.apart l b).disarm n e = (s.disarm n e).apart l b := fun e => by
    unfold State.disarm
    rw [apart_ite]
    rfl
  simp only [State.fire, apart_active, hd, notify_apart, takeSchedule_apart, apart_ite]
  rfl

@[simp] theorem outflowEvent_apart (k : StationId) : (s.apart l b).outflowEvent k = (s.outflowEvent k).apart l b := by
  unfold State.outflowEvent
  rw [apart_ite]
  rfl

@[simp] theorem surchargeReviews_apart (k : StationId) (before : Stage) :
    (s.apart l b).surchargeReviews k before = (s.surchargeReviews k before).apart l b := by
  simp only [State.surchargeReviews, apart_station, apart_active, gangReviews_apart, apart_ite]

@[simp] theorem balanceEvent_apart (k : StationId) (arrival ahead : Nat) :
    (s.apart l b).balanceEvent k arrival ahead = (s.balanceEvent k arrival ahead).apart l b := by
  cases hp : (s.stationEntry k).isPresent with
  | false => rw [balanceEvent_absent hp, balanceEvent_absent (s := s.apart l b) hp]
  | true =>
    cases hv : (s.station k).storageValid with
    | false => rw [balanceEvent_unmeasured hp hv, balanceEvent_unmeasured (s := s.apart l b) hp hv]; rfl
    | true =>
      rw [balanceEvent_present hp hv, balanceEvent_present (s := s.apart l b) hp hv]
      simp only [apart_stationEntry, apart_station, setStation_apart, notify_apart, ← apart_ite, surchargeReviews_apart]

@[simp] theorem reachMinute_apart (k : ReachId) : (s.apart l b).reachMinute k = (s.reachMinute k).apart l b := by
  have ha : ∀ q, (s.apart l b).advanceLine k q = (s.advanceLine k q).apart l b := fun q => by
    simp only [State.advanceLine, apart_reach, setReach_apart, notify_apart]
    split <;> rfl
  simp only [State.reachMinute, State.reseed, apart_reach, apart_station, apart_reachEntry, setReach_apart, notify_apart, ha, apart_ite]

@[simp] theorem deliver_apart (k : ReachId) : (s.apart l b).deliver k = (s.deliver k).apart l b := by
  simp only [State.deliver, apart_reachEntry, apart_reach, apart_stationEntry, apart_station, reachMinute_apart, balanceEvent_apart,
    apart_ite]

@[simp] theorem stationMinute_apart (k : StationId) : (s.apart l b).stationMinute k = (s.stationMinute k).apart l b := by
  simp only [State.stationMinute, balanceEvent_apart, deliver_apart]
  split <;> rfl

theorem minuteOutflow_apart : (s.apart l b).minuteOutflow = s.minuteOutflow.apart l b := by
  have ho := forEach_apart (f := fun k s => s.outflowEvent k) s l b (fun k t => outflowEvent_apart t l b k) (allFin 6)
  simp only [State.minuteOutflow, apart_minuteDue, ho, apart_ite]
  generalize forEach (allFin 6) (fun k s => s.outflowEvent k) s = t
  rfl

theorem minuteBalance_apart : (s.apart l b).minuteBalance = s.minuteBalance.apart l b := by
  have ho : ∀ ks, (s.apart l b).owing ks = (s.owing ks).apart l b := fun _ => rfl
  cases hb : s.minuteDue.balance with
  | nil => rw [minuteBalance_nil hb, minuteBalance_nil (s := s.apart l b) hb]
  | cons k ks => rw [minuteBalance_cons hb, minuteBalance_cons (s := s.apart l b) hb, ho, stationMinute_apart]

theorem minuteSchedule_apart : (s.apart l b).minuteSchedule = s.minuteSchedule.apart l b := by
  have hs := fun t : State => forEach_apart (f := fun n s => s.fire n) t l b (fun n t => fire_apart t l b n) (allFin 32)
  have hd : (({ s.apart l b with minuteDue := { s.minuteDue with schedule := false } } : State))
      = ({ s with minuteDue := { s.minuteDue with schedule := false } } : State).apart l b := rfl
  simp only [State.minuteSchedule, State.scheduleEvent, apart_minuteDue, hd, hs, apart_ite]

/-- An event of a model minute does the same with another inbox. -/
theorem minuteEvent_apart {e : DueEvent} (he : e ∈ minuteEvents .whole) : (s.apart l b).takeDue e = (s.takeDue e).apart l b := by
  rcases mem_minuteEvents he with rfl | rfl | rfl
  · exact minuteOutflow_apart s l b
  · exact minuteBalance_apart s l b
  · exact minuteSchedule_apart s l b

theorem beginF_apart : (s.apart l b).beginF .channels = (s.beginF .channels).apart l b := by
  have hj := fun t : State => forEach_apart (f := fun g s => s.judge g) t l b (fun g t => judge_apart t l b g)
  simp only [State.beginF, apart_portF, apart_dueF, claimRoom_channels, setPortF_apart, hj]
  split
  · rw [apart_ite]
  · rfl

@[simp] theorem beginsF_apart : (s.apart l b).beginsF = s.beginsF.apart l b := by
  simp only [State.beginsF, apart_dueF, beginF_apart, finish_apart, apart_ite]

end apart

end Sys2Proof.Machine
end

section
/-! The minute behind a Responder that was told of room (R149): up to the first event that hands on a notice it runs as if no Responder
waited, and behind that event the Responder takes what it can. -/

namespace Sys2Proof.Machine

/-- What the part's own frames and the reserved places say is kept by every event and request, when a notice placed in a free place keeps
it. -/
theorem durable_own {Q : List OwnFrame → Nat → Prop}
    (hn : ∀ own r n, own.length + r < 32 → Q own r → Q (own ++ [.notice n]) r) : Durable fun s => Q s.portD.own s.portD.reserved where
  chan _ _ _ h := h
  gang _ _ _ h := h
  station _ _ _ h := h
  silence _ _ _ h := h
  reach _ _ _ h := h
  armed _ _ h := h
  due _ _ h := h
  tables _ _ h := h
  waits _ _ _ h := h
  push _ _ _ _ h := h
  report _ _ h := h
  notice s _ _ _ _ h := by
    unfold State.notify
    split
    · next hr => exact hn _ _ _ ((ownRoom_iff s).mp hr) h
    · exact h
  store _ _ h := h
  clock _ _ _ h := h
  free _ h := h
  rejects _ _ h := h
  countD _ _ h := h
  countF _ _ h := h
  pass _ _ h := by
    unfold State.passToField
    split <;> exact h
  forward _ _ h := by
    unfold State.forwardUp
    split <;> exact h
  tick _ h := h
  freeF _ h := h
  freeD _ h := h

theorem durable_startsWith (l : List OwnFrame) : Durable fun s => l <+: s.portD.own :=
  durable_own (Q := fun own _ => l <+: own) fun _ _ _ _ h => h.trans (List.prefix_append ..)

/-- Notices and nothing else stand behind the frames `l`. -/
def NoticesBehind (l own : List OwnFrame) : Prop := ∃ ns : List Notice, own = l ++ ns.map .notice

theorem durable_noticesBehind (l : List OwnFrame) : Durable fun s => NoticesBehind l s.portD.own :=
  durable_own (Q := fun own _ => NoticesBehind l own) fun _ _ n _ ⟨ns, h⟩ => ⟨ns ++ [n], by rw [h]; simp⟩

/-- Without a place no notice enters UP_OWN. -/
theorem durable_full (l : List OwnFrame) : Durable fun s => s.portD.own = l ∧ 32 ≤ s.portD.own.length + s.portD.reserved :=
  durable_own (Q := fun own r => own = l ∧ 32 ≤ own.length + r) fun _ _ _ hr h => absurd hr (Nat.not_lt.mpr h.2)

/-! ### An event of the minute while port D sends -/

/-- An event taken behind the transmission due on port F. -/
def State.worked (s : State) (e : DueEvent) : State := (s.beginsF.takeDue e).finish

/-- The events that are due, taken one after another with no Responder between them. -/
def State.workedThrough (s : State) (es : List DueEvent) : State := s.takeEach (fun s f => (f s.beginsF).finish) es

theorem workedThrough_cons (s : State) (e : DueEvent) (es : List DueEvent) :
    s.workedThrough (e :: es) = (if s.isDue e then s.worked e else s).workedThrough es := rfl

theorem begun_of_sending {s : State} (h : s.portD.sending.isSome = true) : s.begun = s.beginsF := by
  have hd := beginsD_of_not_due (dueD_of_sending h)
  unfold State.begun
  rw [hd, hd]

theorem worked_told (s : State) (e : DueEvent) : (s.worked e).told = s.told :=
  (calm_told.finish _).trans ((calm_told.takeDue _ e).trans (lined_told.beginsF s))

theorem worked_inbox (s : State) (e : DueEvent) : (s.worked e).inbox = s.inbox :=
  (calm_inbox.finish _).trans ((calm_inbox.takeDue _ e).trans (lined_inbox.beginsF s))

theorem worked_sending (s : State) (e : DueEvent) : (s.worked e).portD.sending = s.portD.sending := by
  have hs : (s.beginsF.takeDue e).portD.sending = s.beginsF.portD.sending :=
    congrArg (fun x => x.2.2.2.1) (calm_portD.takeDue s.beginsF e)
  unfold State.worked
  rw [finish_portD, hs, (beginsF_line s).2]

/-- An event hands on notices and no other own frames. -/
theorem worked_own {l : List OwnFrame} {s : State} (h : NoticesBehind l s.portD.own) (e : DueEvent) :
    NoticesBehind l (s.worked e).portD.own := by
  unfold State.worked
  rw [finish_portD]
  exact (durable_noticesBehind l).takeDue e (by rw [(beginsF_line s).2]; exact h)

theorem worked_startsWith {l : List OwnFrame} {s : State} (h : l <+: s.portD.own) (e : DueEvent) : l <+: (s.worked e).portD.own := by
  unfold State.worked
  rw [finish_portD]
  exact (keeps_own l).takeDue e (by rw [(beginsF_line s).2]; exact h)

theorem noticesBehind_self (l : List OwnFrame) : NoticesBehind l l := ⟨[], (List.append_nil l).symm⟩

/-- More notices stand in UP_OWN only behind a first new one. -/
theorem startsWith_of_more {s t : State} (h : NoticesBehind s.portD.own t.portD.own) (hm : s.noticeCount < t.noticeCount) :
    ∃ n, s.portD.own ++ [.notice n] <+: t.portD.own := by
  obtain ⟨ns, hns⟩ := h
  cases ns with
  | nil =>
    unfold State.noticeCount at hm
    rw [hns] at hm
    simp at hm
  | cons n ns => exact ⟨n, ns.map .notice, by rw [hns]; simp⟩

theorem noticeCount_le {s t : State} (h : NoticesBehind s.portD.own t.portD.own) : s.noticeCount ≤ t.noticeCount := by
  obtain ⟨ns, hns⟩ := h
  unfold State.noticeCount
  rw [hns, List.countP_append]
  exact Nat.le_add_right ..

/-- While port D sends, an event of several has the Responder behind it when it was told of room and the event hands on a notice. -/
theorem runWaiting_of_sending {s : State} (h : s.portD.sending.isSome = true) (e : DueEvent) :
    s.runWaiting (fun s => s.takeDue e) =
      if s.told && decide (s.noticeCount < (s.worked e).noticeCount) then
        State.serve (s.worked e).inbox.length { s.worked e with told := false }
      else s.worked e := by
  have hc : s.beginsF.noticeCount = s.noticeCount := by
    unfold State.noticeCount
    rw [(beginsF_line s).2]
  unfold State.runWaiting
  rw [begun_of_sending h]
  simp only
  rw [lined_told.beginsF, hc]
  rfl

/-- With no Responder waiting, the events of a minute follow one another. -/
theorem takeEach_untold {s : State} (hd : s.portD.sending.isSome = true) (ht : s.told = false) (es : List DueEvent) :
    s.takeEach State.runWaiting es = s.workedThrough es := by
  induction es generalizing s with
  | nil => rfl
  | cons e es ih =>
    rw [takeEach_cons, workedThrough_cons]
    split
    · rw [runWaiting_of_sending hd, ht, Bool.false_and, if_neg (by decide)]
      exact ih (by rw [worked_sending]; exact hd) ((worked_told s e).trans ht)
    · exact ih hd ht

/-- The events of a minute hand on notices and no other own frames. -/
theorem workedThrough_own (es : List DueEvent) {l : List OwnFrame} {s : State} (h : NoticesBehind l s.portD.own) :
    NoticesBehind l (s.workedThrough es).portD.own :=
  takeEach_preserves (P := fun t => NoticesBehind l t.portD.own) (fun e _ ht _ => worked_own ht e) es h

theorem workedThrough_told (es : List DueEvent) (s : State) : (s.workedThrough es).told = s.told :=
  takeEach_preserves (P := fun t => t.told = s.told) (fun e t ht _ => (worked_told t e).trans ht) es rfl

theorem worked_apart (s : State) (l : List (List Byte)) (b : Bool) {e : DueEvent} (he : e ∈ minuteEvents .whole) :
    (s.apart l b).worked e = (s.worked e).apart l b := by
  unfold State.worked
  rw [beginsF_apart, minuteEvent_apart _ _ _ he, finish_apart]

theorem isDue_apart (s : State) (l : List (List Byte)) (b : Bool) {e : DueEvent} (he : e ∈ minuteEvents .whole) :
    (s.apart l b).isDue e = s.isDue e := by
  rcases mem_minuteEvents he with rfl | rfl | rfl <;> rfl

/-- A minute does the same with another inbox and another word to the Responder. -/
theorem workedThrough_apart {es : List DueEvent} (hes : ∀ e ∈ es, e ∈ minuteEvents .whole) (s : State) (l : List (List Byte))
    (b : Bool) : (s.apart l b).workedThrough es = (s.workedThrough es).apart l b := by
  induction es generalizing s with
  | nil => rfl
  | cons e es ih =>
    have he := hes e (List.mem_cons_self ..)
    have ih := ih fun x hx => hes x (List.mem_cons_of_mem _ hx)
    rw [workedThrough_cons, workedThrough_cons, isDue_apart _ _ _ he]
    split
    · rw [worked_apart _ _ _ he]
      exact ih _
    · exact ih _

/-! ### The Responder behind the first notice -/

/-- Port D sends, the Responder does not wait, no request of the inbox is a RESTART, and the own frames begin with `l`. -/
structure Holding (l : List OwnFrame) (s : State) : Prop where
  told : s.told = false
  sending : s.portD.sending.isSome = true
  inbox : ∀ p ∈ s.inbox, readRequest p ≠ .restart
  own : l <+: s.portD.own

section holding

variable {l : List OwnFrame} {s : State}

theorem Holding.beginsF (h : Holding l s) : Holding l s.beginsF where
  told := (lined_told.beginsF s).trans h.told
  sending := by rw [(beginsF_line s).2]; exact h.sending
  inbox := by rw [lined_inbox.beginsF]; exact h.inbox
  own := by rw [(beginsF_line s).2]; exact h.own

theorem Holding.onLines (h : Holding l s) : Holding l s.onLines := by
  unfold State.onLines
  rw [beginD_of_sending h.sending]
  exact h.beginsF

theorem Holding.worked (e : DueEvent) (h : Holding l s) : Holding l (s.worked e) where
  told := (worked_told s e).trans h.told
  sending := by rw [worked_sending]; exact h.sending
  inbox := by rw [worked_inbox]; exact h.inbox
  own := worked_startsWith h.own e

theorem Holding.runWaiting (e : DueEvent) (h : Holding l s) : Holding l (s.runWaiting fun s => s.takeDue e) := by
  rw [runWaiting_of_sending h.sending, h.told, Bool.false_and, if_neg (by decide)]
  exact h.worked e

theorem Holding.beforeTaking (p : List Byte) (h : Holding l s) : Holding l (s.beforeTaking p) := by
  unfold State.beforeTaking
  split
  · refine Holding.onLines (takeEach_preserves (P := Holding l) (fun e t ht _ => ?_) _ h)
    have hl : t.onLines = t.beginsF := congrArg State.beginsF (beginD_of_sending ht.sending)
    rw [hl]
    exact ht.worked e
  · exact h

theorem Holding.betweenRequests (h : Holding l s) : Holding l s.betweenRequests := by
  unfold State.betweenRequests
  split
  · exact h
  · exact h.onLines

/-- The answer of a request that resets nothing stands behind the own frames before it. -/
theorem Holding.respond {p : List Byte} {ps : List (List Byte)} (hi : s.inbox = p :: ps) (h : Holding l s) :
    Holding l (s.respond p) := by
  have hp := h.inbox p (by rw [hi]; exact List.mem_cons_self ..)
  have ho := judgeRequest_outside s.reserve p
  rw [respond_eq hp]
  exact {
    told := (calm_told.finish _).trans (congrArg (fun x => x.2.2.2.2.2.2.1) ho)
    sending := by
      rw [finish_portD]
      have hs : (s.reserve.judgeRequest p).state.portD.sending = s.portD.sending :=
        congrArg (fun x => x.2.2.2.2.2.2.2.2.2.2.2.2.2.1) ho
      exact hs ▸ h.sending
    inbox := by
      have hd : (s.reserve.judgeRequest p).state.inbox = s.inbox.drop 1 := congrArg (fun x => x.2.2.2.2.2.1) ho
      rw [calm_inbox.finish]
      exact fun x hx => h.inbox x (List.mem_of_mem_drop (hd ▸ hx))
    own := by
      rw [finish_portD]
      exact ((durable_startsWith l).judgeRequest (s := s.reserve) p h.own).trans (List.prefix_append ..) }

theorem Holding.serve (n : Nat) (h : Holding l s) : Holding l (State.serve n s) := by
  induction n generalizing s with
  | zero => exact h
  | succ n ih =>
    unfold State.serve
    split
    · exact h
    · next p ps hp =>
      have hb := h.beforeTaking p
      simp only
      split
      · exact ih (hb.respond ((beforeTaking_inbox s p).trans hp)).betweenRequests
      · exact hb

end holding

/-- A minute that hands on no notice leaves the Responder that was told of room waiting. -/
theorem takeEach_told_quiet {es : List DueEvent} {s : State} (hd : s.portD.sending.isSome = true)
    (hq : (s.workedThrough es).noticeCount ≤ s.noticeCount) : s.takeEach State.runWaiting es = s.workedThrough es := by
  induction es generalizing s with
  | nil => rfl
  | cons e es ih =>
    rw [workedThrough_cons] at hq ⊢
    rw [takeEach_cons]
    split at hq
    · next hdue =>
      have hstep := noticeCount_le (worked_own (noticesBehind_self s.portD.own) e)
      have hrest := noticeCount_le (workedThrough_own es (noticesBehind_self (s.worked e).portD.own))
      rw [if_pos hdue, if_pos hdue, runWaiting_of_sending hd, decide_eq_false (by omega), Bool.and_false, if_neg (by decide)]
      exact ih (by rw [worked_sending]; exact hd) (by omega)
    · next hdue =>
      rw [if_neg hdue, if_neg hdue]
      exact ih hd hq

/-- In a minute that hands on notices the first stands behind the frames there before, and the answers of the Responder behind it. -/
theorem takeEach_told_noticed {es : List DueEvent} {s : State} (hd : s.portD.sending.isSome = true) (ht : s.told = true)
    (hi : ∀ p ∈ s.inbox, readRequest p ≠ .restart) (hm : s.noticeCount < (s.workedThrough es).noticeCount) :
    ∃ n, Holding (s.portD.own ++ [.notice n]) (s.takeEach State.runWaiting es) := by
  induction es generalizing s with
  | nil => exact absurd hm (Nat.lt_irrefl _)
  | cons e es ih =>
    rw [workedThrough_cons] at hm
    rw [takeEach_cons]
    split at hm
    · next hdue =>
      have hbehind := worked_own (noticesBehind_self s.portD.own) e
      rw [if_pos hdue, runWaiting_of_sending hd, ht, Bool.true_and]
      by_cases hfirst : s.noticeCount < (s.worked e).noticeCount
      · obtain ⟨n, hn⟩ := startsWith_of_more hbehind hfirst
        have hh : Holding (s.portD.own ++ [.notice n]) { s.worked e with told := false } :=
          ⟨rfl, by show (s.worked e).portD.sending.isSome = true; rw [worked_sending]; exact hd,
            by show ∀ p ∈ (s.worked e).inbox, _; rw [worked_inbox]; exact hi, hn⟩
        rw [if_pos (decide_eq_true hfirst)]
        exact ⟨n, takeEach_preserves (fun e _ hu _ => hu.runWaiting e) es (hh.serve _)⟩
      · have hsame : (s.worked e).portD.own = s.portD.own := by
          obtain ⟨ns, hns⟩ := hbehind
          cases ns with
          | nil => rw [hns, List.map_nil, List.append_nil]
          | cons n ns =>
            refine absurd ?_ hfirst
            unfold State.noticeCount
            rw [hns, List.countP_append, List.map_cons, List.countP_cons_of_pos rfl]
            omega
        have hcount : (s.worked e).noticeCount = s.noticeCount := congrArg (List.countP OwnFrame.isNotice) hsame
        rw [decide_eq_false hfirst, if_neg (by decide), ← hsame]
        exact ih (by rw [worked_sending]; exact hd) ((worked_told s e).trans ht) (by rw [worked_inbox]; exact hi) (hcount ▸ hm)
    · next hdue =>
      rw [if_neg hdue]
      exact ih hd ht hi hm

end Sys2Proof.Machine
end

section
/-! Port D (R147 to R149): which queue a frame begins from, and the Responder told of the place an own frame leaves. -/

namespace Sys2Proof.Machine

/-! ### The Responder no longer waits -/

theorem respond_told (s : State) (p : List Byte) : (s.respond p).told = false := by
  have hj : (s.reserve.judgeRequest p).state.told = false := congrArg (fun x => x.2.2.2.2.2.2.1) (judgeRequest_outside s.reserve p)
  unfold State.respond State.afterReply
  rw [calm_told.finish]
  split
  · unfold State.resetAll
    simp only
    split <;> simp only [calm_told.notify] <;> rfl
  · exact hj

/-- A Responder that is taking requests is not waiting. -/
theorem serve_told (n : Nat) {s : State} (h : s.told = false) : (State.serve n s).told = false := by
  refine serve_preserves (P := fun t => t.told = false) (fun t p ht => ?_) (fun t p _ => ?_) n h
  · exact (beforeTaking_sameBut t p .told (by decide)).trans ht
  · unfold State.betweenRequests
    split
    · exact respond_told t p
    · exact (lined_told.onLines _).trans (respond_told t p)

theorem hear_told (s : State) : s.hear.told = false := by
  unfold State.hear
  split
  · exact serve_told _ rfl
  · next h => exact Bool.eq_false_iff.mpr h

theorem beginsD_told {s : State} (h : s.told = false) : s.beginsD.told = false := by
  unfold State.beginsD State.beginAndTell
  split
  · rw [calm_told.finish]
    simp only
    split
    · exact serve_told _ rfl
    · exact (lined_told.beginD s).trans h
  · exact h

theorem begun_told {s : State} (h : s.told = false) : s.begun.told = false :=
  (lined_told.beginsF _).trans (beginsD_told (beginsD_told h))

theorem begun_hear_told (s : State) : s.hear.begun.told = false := begun_told (hear_told s)

/-- Behind the requests a Responder took before it, an event is its own effect. -/
theorem event_hear (s : State) (f : State → State) : s.hear.event f = .next (f s.hear.begun).finish := by
  unfold State.event State.runEvent State.takeEvent
  rw [begun_hear_told]
  rfl

/-- A command that is neither a reset, a beginning, of time, an arrival nor of a request is one event. -/
theorem event_of_command {c : Instr} (hreset : ∀ x, c ≠ .powerOnReset x ∧ c ≠ .externalReset x) (hD : ∀ x, c ≠ .portDTxBegin x)
    (hF : ∀ x, c ≠ .portFTxBegin x) (hsecond : c ≠ .secondTick) (hminute : ∀ x, c ≠ .modelMinute x)
    (hreq : ∀ d q, c ≠ .mgmtReq d q) (hrow : ∀ r : Request, c ≠ r.command) : ∃ f, ∀ s, exec c s = s.event f := by
  cases c with
  | powerOnReset x => exact absurd rfl (hreset x).1
  | externalReset x => exact absurd rfl (hreset x).2
  | portDTxBegin x => exact absurd rfl (hD x)
  | portFTxBegin x => exact absurd rfl (hF x)
  | secondTick => exact absurd rfl hsecond
  | modelMinute x => exact absurd rfl (hminute x)
  | mgmtReq d q => exact absurd rfl (hreq d q)
  | mgmtBadKind => exact absurd rfl (hrow .badKind)
  | readEntry => exact absurd rfl (hrow .readEntry)
  | openLoad => exact absurd rfl (hrow .openLoad)
  | writeEntry => exact absurd rfl (hrow .writeEntry)
  | abandon => exact absurd rfl (hrow .abandon)
  | copy => exact absurd rfl (hrow .copy)
  | check => exact absurd rfl (hrow .check)
  | commit => exact absurd rfl (hrow .commit)
  | setClock => exact absurd rfl (hrow .setClock)
  | resumeStation => exact absurd rfl (hrow .resumeStation)
  | resumeGate => exact absurd rfl (hrow .resumeGate)
  | forceGate => exact absurd rfl (hrow .forceGate)
  | setMemberOut => exact absurd rfl (hrow .setMemberOut)
  | reseedReach => exact absurd rfl (hrow .reseedReach)
  | readMarks => exact absurd rfl (hrow .readMarks)
  | snapshot => exact absurd rfl (hrow .snapshot)
  | readSnapshot => exact absurd rfl (hrow .readSnapshot)
  | setSampler => exact absurd rfl (hrow .setSampler)
  | readTrace => exact absurd rfl (hrow .readTrace)
  | readCounts => exact absurd rfl (hrow .readCounts)
  | restart => exact absurd rfl (hrow .restart)
  | _ => exact ⟨_, fun _ => rfl⟩

/-- An arrival comes behind the requests a told Responder takes. -/
theorem arrival_told {s : State} (hF : s.dueF = false) (hD : s.dueD = false) (f : State → State) : s.arrival f = s.hear.arrival f := by
  unfold State.arrival
  rw [begun_of_not_due hF hD, hear_of_untold (begun_hear_told s), begun_begun]

section told

variable {s : State} (hs : s.settled) (hF : s.dueF = false) (hD : s.dueD = false)

include hs hF hD

/-- Without its word to the Responder the state is quiet. -/
theorem quiet_untold : ({ s with told := false } : State).quiet := ⟨⟨hs.of_same rfl rfl rfl rfl rfl, hF, hD⟩, rfl⟩

/-- A begin on port F that was not due leaves its turn to the Responder. -/
theorem beginF_told (ht : s.told = true) (claim : Claim) :
    exec (.portFTxBegin claim) { s with told := false } = .next { s with told := false }
    ∧ exec (.portFTxBegin claim) s = .next (State.serve s.inbox.length { s with told := false }) := by
  have hq := quiet_untold hs hF hD
  have hset : ({ s with told := false } : State).finish = { s with told := false } := hq.1.1
  have hsf : s.finish = s := hs
  refine ⟨?_, ?_⟩
  · show Host.Outcome.next (State.hear (State.finish (State.beginF { s with told := false } claim))) = _
    rw [beginF_of_not_due hq.1.2.1, hset, hear_of_untold rfl]
  · show Host.Outcome.next (State.hear (State.finish (s.beginF claim))) = _
    rw [beginF_of_not_due hF, hsf]
    unfold State.hear
    rw [if_pos ht]

/-- One event of a told Responder: before it when the event hands on no notice, behind it otherwise. -/
theorem event_told (ht : s.told = true) (f : State → State) : ∃ t, ({ s with told := false } : State).event f = .next t
    ∧ (s.noticeCount < t.noticeCount → s.event f = .next (State.serve t.inbox.length t))
    ∧ (t.noticeCount ≤ s.noticeCount → s.event f = s.hear.event f) := by
  refine ⟨_, event_of_quiet (quiet_untold hs hF hD) f, fun hm => ?_, fun hm => ?_⟩
  · rw [event_of_told ⟨hs, hF, hD⟩ ht]
    exact congrArg Host.Outcome.next (if_pos hm)
  · rw [event_of_told ⟨hs, hF, hD⟩ ht, event_hear]
    exact congrArg Host.Outcome.next (if_neg (Nat.not_lt.mpr hm))

end told

/-- The events of a part of the minute are events of a minute. -/
theorem minuteEvents_whole {part : MinutePart} : ∀ e ∈ minuteEvents part, e ∈ minuteEvents .whole := by
  cases part <;> decide

/-- A minute of a told Responder while port D sends: before it when the minute hands on no notice, else behind the first. -/
theorem minute_told {s : State} (hF : s.dueF = false) (hd : s.portD.sending.isSome = true) (ht : s.told = true)
    (part : MinutePart) (hdue : ∃ e ∈ minuteEvents part, s.isDue e = true) :
    ∃ t, exec (.modelMinute part) { s with told := false, inbox := [] } = .next t
      ∧ (t.noticeCount ≤ s.noticeCount → exec (.modelMinute part) s = exec (.modelMinute part) s.hear)
      ∧ (s.noticeCount < t.noticeCount → (∀ p ∈ s.inbox, readRequest p ≠ .restart) →
          ∃ u n rest, exec (.modelMinute part) s = .next u ∧ u.portD.own = s.portD.own ++ OwnFrame.notice n :: rest) := by
  have hD := dueD_of_sending hd
  have hbegun := begun_of_not_due hF hD
  have hany : (minuteEvents part).any s.isDue = true := List.any_eq_true.mpr hdue
  have hexec : ∀ u : State, u.begun = u → exec (.modelMinute part) u = .next (u.takeAll (minuteEvents part)).finish := fun u hu => by
    show done (u.begun.takeAll _) = _
    rw [hu]
    rfl
  have hcount : ((s.apart [] false).workedThrough (minuteEvents part)).finish.noticeCount
      = (s.workedThrough (minuteEvents part)).noticeCount := by
    unfold State.noticeCount
    rw [finish_portD, workedThrough_apart minuteEvents_whole]
    rfl
  refine ⟨((s.apart [] false).workedThrough (minuteEvents part)).finish, ?_, fun hq => ?_, fun hm hi => ?_⟩
  · show exec (.modelMinute part) (s.apart [] false) = _
    rw [hexec _ (begun_of_not_due (s := s.apart [] false) hF hD), takeAll_of_untold (s := s.apart [] false) rfl,
      takeEach_untold (s := s.apart [] false) hd rfl]
  · have hrun := takeEach_told_quiet hd (hcount ▸ hq)
    have hwait : (s.workedThrough (minuteEvents part)).told = true := (workedThrough_told _ s).trans ht
    rw [hexec s hbegun]
    show _ = done (s.hear.begun.takeAll _)
    rw [takeAll_of_untold (begun_hear_told s)]
    unfold State.takeAll
    simp only
    rw [hrun, ht, hwait, hany]
    rfl
  · obtain ⟨n, hh⟩ := takeEach_told_noticed hd ht hi (hcount ▸ hm)
    obtain ⟨rest, hrest⟩ := hh.own
    refine ⟨_, n, rest, hexec s hbegun, ?_⟩
    unfold State.takeAll
    simp only
    rw [hh.told, Bool.and_false, Bool.false_and, if_neg (by decide), finish_portD, ← hrest, List.append_assoc]
    rfl

/-! ### The begin of a frame -/

theorem dueD_iff (s : State) : s.dueD = true ↔ s.portD.sending = none ∧ ¬(s.portD.fwd = [] ∧ s.portD.own = []) := by
  unfold State.dueD PortD.choice
  cases s.portD.sending <;> cases s.portD.fwd <;> cases s.portD.own <;> cases s.portD.lastFrom <;> simp

theorem beginD_fwd {s : State} {f : LineFrame} {rest : List LineFrame} (hd : s.portD.sending = none) (hf : s.portD.fwd = f :: rest)
    (ho : s.portD.own = [] ∨ s.portD.lastFrom = .own) :
    s.beginD = s.setPortD { s.portD with fwd := rest, lastFrom := .fwd, sending := some f } := by
  have hc : s.portD.choice = some .fwd := by
    unfold PortD.choice
    rcases ho with ho | ho
    · rw [hf, ho]
    · rw [hf, ho]
      cases s.portD.own <;> rfl
  unfold State.beginD
  rw [hd, hc, hf]
  rfl

/-- An own frame begun. -/
def State.sentOwn (s : State) (f : OwnFrame) (rest : List OwnFrame) : State :=
  (s.setPortD { s.portD with own := rest, lastFrom := .own, sending := some (f.frame (Config.freeByte s.freeCount 0)) }).useFree

theorem beginD_own {s : State} {f : OwnFrame} {rest : List OwnFrame} (hd : s.portD.sending = none) (ho : s.portD.own = f :: rest)
    (hf : s.portD.fwd = [] ∨ s.portD.lastFrom = .fwd) : s.beginD = s.sentOwn f rest := by
  have hc : s.portD.choice = some .own := by
    unfold PortD.choice
    rcases hf with hf | hf
    · rw [hf, ho]
    · rw [hf, ho]
      cases s.portD.fwd <;> rfl
  unfold State.beginD
  rw [hd, hc, ho]
  rfl

/-- A begin that frees no place of UP_OWN tells the Responder nothing. -/
theorem beginAndTell_of_no_place {s : State} (h : s.portD.own.length ≤ s.beginD.portD.own.length) (first : FirstTaker) :
    s.beginAndTell first = s.beginD := if_neg (Nat.not_lt.mpr h)

/-- An own frame begun leaves a place, which the Responder takes at once. -/
theorem beginAndTell_responder {s : State} {f : OwnFrame} {rest : List OwnFrame} (hd : s.portD.sending = none)
    (ho : s.portD.own = f :: rest) (hf : s.portD.fwd = [] ∨ s.portD.lastFrom = .fwd) :
    s.beginAndTell .responder = State.serve s.inbox.length { s.sentOwn f rest with told := false } := by
  unfold State.beginAndTell
  rw [beginD_own hd ho hf]
  exact if_pos (by rw [ho]; exact Nat.lt_succ_self _)

/-- An own frame begun leaves a place, which a Responder with requests waits to take behind the next event. -/
theorem beginAndTell_nextEvent {s : State} {f : OwnFrame} {rest : List OwnFrame} (hd : s.portD.sending = none)
    (ho : s.portD.own = f :: rest) (hf : s.portD.fwd = [] ∨ s.portD.lastFrom = .fwd) :
    s.beginAndTell .nextEvent = { s.sentOwn f rest with told := !s.inbox.isEmpty } := by
  unfold State.beginAndTell
  rw [beginD_own hd ho hf]
  exact if_pos (by rw [ho]; exact Nat.lt_succ_self _)

/-- The request that takes the only place of UP_OWN leaves its answer there and nothing beside it. -/
theorem respond_last_place {s : State} {p : List Byte} (hp : readRequest p ≠ .restart) (hl : s.portD.own.length = 31)
    (hr : s.portD.reserved = 0) :
    ∃ status results, (s.respond p).portD.own = s.portD.own ++ [replyTo p status results] ∧ (s.respond p).portD.reserved = 0
      ∧ (s.respond p).portD.sending = s.portD.sending ∧ (s.respond p).inbox = s.inbox.drop 1 := by
  have ho := judgeRequest_outside s.reserve p
  have hfull := (durable_full s.portD.own).judgeRequest (s := s.reserve) p ⟨rfl, by
    show 32 ≤ s.portD.own.length + (s.portD.reserved + 1)
    omega⟩
  have hres : (s.reserve.judgeRequest p).state.portD.reserved = s.portD.reserved + 1 :=
    congrArg (fun x => x.2.2.2.2.2.2.2.2.2.2.2.1) ho
  refine ⟨(s.reserve.judgeRequest p).status, (s.reserve.judgeRequest p).results, ?_, ?_, ?_, ?_⟩ <;> rw [respond_eq hp]
  · rw [finish_portD]
    exact congrArg (· ++ _) hfull.1
  · rw [finish_portD]
    show (s.reserve.judgeRequest p).state.portD.reserved - 1 = 0
    omega
  · rw [finish_portD]
    exact congrArg (fun x => x.2.2.2.2.2.2.2.2.2.2.2.2.2.1) ho
  · rw [calm_inbox.finish]
    exact congrArg (fun x => x.2.2.2.2.2.1) ho

/-- With one place in UP_OWN and port D sending, the Responder answers the oldest request and no other. -/
theorem serve_last_place {s : State} {p : List Byte} {ps : List (List Byte)} (hd : s.portD.sending.isSome = true)
    (hi : s.inbox = p :: ps) (hp : readRequest p ≠ .restart) (hc : readRequest p = .setClock → s.minuteOwed = false)
    (hl : s.portD.own.length = 31) (hr : s.portD.reserved = 0) :
    ∃ status results, (State.serve s.inbox.length s).inbox = ps
      ∧ (State.serve s.inbox.length s).portD.own = s.portD.own ++ [replyTo p status results] := by
  obtain ⟨status, results, hown, hres, hsend, hinbox⟩ := respond_last_place hp hl hr
  have hroom : s.ownRoom = true := (ownRoom_iff s).mpr (by omega)
  have hline : (s.respond p).betweenRequests.portD = (s.respond p).portD ∧ (s.respond p).betweenRequests.inbox = (s.respond p).inbox := by
    unfold State.betweenRequests
    split
    · exact ⟨rfl, rfl⟩
    · have hb : (s.respond p).onLines = (s.respond p).beginsF := congrArg State.beginsF (beginD_of_sending (hsend ▸ hd))
      exact ⟨hb ▸ (beginsF_line _).2, lined_inbox.onLines _⟩
  have hfull : (s.respond p).betweenRequests.ownRoom = false := by
    unfold State.ownRoom
    rw [hline.1, hown, hres, List.length_append, hl]
    rfl
  rw [hi, List.length_cons, serve_taken _ hi hroom (beforeTaking_at_once hc), serve_idle _ (.inr hfull)]
  exact ⟨status, results, hline.2.trans (by rw [hinbox, hi]; rfl), by rw [hline.1, hown]⟩

/-- Settles O9: a begin by the queue chosen, the place it leaves by who takes it first, and a told Responder by the kind of the next
command. -/
theorem portDAlternates : Obligations.PortDAlternates := by
  intro s hs
  refine ⟨fun first hD => ?_, dueD_iff s, fun hd first f rest hf ho => ?_,
    fun hd ht first f rest ho hf => ⟨fun hn => ?_, fun hresponder hl hr p ps hi hp hc => ?_⟩, fun hF hD ht => ⟨?_, ?_, ?_, ?_⟩⟩
  · show done (s.beginAndTell first) = _
    have hb := beginD_of_not_due hD
    rw [beginAndTell_of_no_place (by rw [hb]), hb, done_of_settled hs]
  · show done (s.beginAndTell first) = _
    have hb := beginD_fwd hd hf ho
    rw [beginAndTell_of_no_place (by rw [hb]; exact Nat.le_refl _), hb]
    exact done_of_settled (hs.of_same rfl rfl rfl rfl rfl)
  · show done (s.beginAndTell first) = _
    have hsettled : ∀ b, ({ s.sentOwn f rest with told := b } : State).settled := fun _ => hs.of_same rfl rfl rfl rfl rfl
    cases first with
    | nextEvent =>
      have hb : (!s.inbox.isEmpty) = decide (s.inbox ≠ []) := by cases s.inbox <;> rfl
      rw [beginAndTell_nextEvent hd ho hf, done_of_settled (hsettled _), hb]
      rfl
    | responder =>
      have hi : s.inbox = [] := hn.resolve_left nofun
      rw [beginAndTell_responder hd ho hf, serve_idle (s := { s.sentOwn f rest with told := false }) _ (.inl hi),
        done_of_settled (hsettled _), hi]
      rfl
  · subst hresponder
    have hset : ({ s.sentOwn f rest with told := false } : State).settled := hs.of_same rfl rfl rfl rfl rfl
    obtain ⟨status, results, hinbox, hown⟩ := serve_last_place (s := { s.sentOwn f rest with told := false }) rfl hi hp hc
      (by rw [ho] at hl; exact Nat.succ_injective hl) hr
    refine ⟨_, status, results, ?_, hinbox, serve_told _ rfl, hown⟩
    show done (s.beginAndTell .responder) = _
    rw [beginAndTell_responder hd ho hf]
    exact done_of_settled (serve_settled _ hset)
  · intro c hreset hbD hbF hsecond hminute hreq hrow
    obtain ⟨g, hg⟩ := event_of_command hreset hbD hbF hsecond hminute hreq hrow
    rw [hg, hg, hg]
    exact event_told hs hF hD ht g
  · exact fun d q => arrival_told hF hD fun s => s.receiveRequest d q
  · exact fun claim => ⟨_, beginF_told hs hF hD ht claim⟩
  · exact fun hsend part hdue => minute_told hF hsend ht part hdue

end Sys2Proof.Machine
end
